-- ==== Sys2Proof/Word.lean ====
section
/-! DEFINITION. The word types of the machine and the small types that name places in the device: registers, fabric
elements, graphs, generators (spec 01 R9, R12; 05 R81-R88; 11 R219; 12 R252). -/

namespace Sys2Proof

/-- A general register's 64 bits (R9). -/
abbrev Word := BitVec 64
/-- A byte of memory. -/
abbrev Byte := BitVec 8
/-- One lane of a token: a W40 value or an integer lane (R88). -/
abbrev Lane := BitVec 40
/-- The number of a general register x0-x63 (R9). -/
abbrev Reg := Fin 64
/-- A frame of a configuration image, or the raw bits of one (R131). -/
abbrev FrameBits := BitVec 256
/-- One record of a controller tree (R120). -/
abbrev RecordBits := BitVec 128
/-- A core of the device: die × 64 + core within the die (R14 COREID, R81). -/
abbrev CoreIx := Fin 256
/-- A residency slot of the device: die × 1024 + slot (R219). -/
abbrev GraphIx := Fin 4096

/-- The place of a fabric element: core, region, site index and configuration plane (R82, R83, R85). -/
structure Elt where
  core   : Fin 256
  region : Fin 16
  site   : Fin 16
  plane  : Fin 4
  deriving DecidableEq, Repr, Inhabited

/-- A logical generator of a graph (R39, R229). -/
structure GenAt where
  graph : Fin 4096
  gen   : Fin 256
  deriving DecidableEq, Repr, Inhabited

/-- The kind of an access the walker translates (R263). -/
inductive Access where
  | load | store | fetch
  deriving DecidableEq, Repr, Inhabited

/-- The two mailboxes of R472. -/
inductive Mailbox where
  | host | management
  deriving DecidableEq, Repr, Inhabited

/-- What a soft error hits (R477): a stored 8-byte word of DRAM or of a slice (by storage key), a tile word, a configuration frame
of a site (layout 0 compute, 1 tile, 2 switch), an entry of a graph's pockets or of its replay log, a register of a core. -/
inductive SoftTarget where
  | dram (word : Nat)
  | sram (word : Nat)
  | tile (e : Elt) (word : Nat)
  | frame (e : Elt) (layout : Fin 3)
  | pocket (g : GraphIx) (entry : Nat)
  | log (g : GraphIx) (entry : Nat)
  | register (core : CoreIx) (r : Reg)
  deriving DecidableEq, Repr, Inhabited

/-- A unit that Dvorrok can retire (R478, the sparing table). -/
inductive RetireUnit where
  | region (core : Fin 256) (region : Fin 16)
  | dramRow (core : Fin 256)
  | channel (core : Fin 256)
  | linkLane (port : Fin 8)
  | slice (core : Fin 256) (slice : Fin 8)
  deriving DecidableEq, Repr, Inhabited

end Sys2Proof
end

