-- ==== Sys2Proof/Config.lean ====
section
/-! DEFINITION. What the device fixes at manufacture and the values the spec leaves open. Every constant here is opaque:
nothing can be proved of its value (29 R473, R476; 01 R21; 14 R291). -/

namespace Sys2Proof.Config

/-- The stream of free values: the n-th choice that the spec leaves to the device. The state's counter `choices` says
which is next. Never evaluated, never constrained (log entry 2). -/
opaque freeValue : Nat → Nat

/-- SERIAL: fused at manufacture, any 32-bit value (R473, log entry 3). -/
opaque serial : BitVec 32

/-- The device's fused 256-bit secret as 32 bytes (R473, log entry 3). -/
opaque fusedSecret : BitVec 256

/-- The device's P-256 public key, 64 bytes (R471 KEYPUB, log entry 3). -/
opaque publicKey : BitVec 512

/-- The ECDSA P-256 signature with the device's private key over a SHA-256 digest (R476, log entry 3). -/
opaque sign : BitVec 256 → BitVec 512

end Sys2Proof.Config
end

