-- ==== Sys2Proof/Syntax.lean ====
section
/-! DEFINITION. The instructions and steps of the device: one constructor per row of spec/opcode_table.json. 76
are the control core's scalar instructions (03 R48-R56), whose operands are the fields of their words; a register
operand is named d (rd), a (rs1), b (rs2), c (rs3). The others are firings of fabric elements, which name the element,
and the device's own steps, which name what they act on. -/

namespace Sys2Proof

/-- The operations and events of the Xanmon DV4, in families. -/
inductive Instr where
  -- IREG (R51, R63, R64)
  | add (d a b : Reg) | sub (d a b : Reg) | mul (d a b : Reg) | mulh (d a b : Reg) | mulhu (d a b : Reg)
  | div (d a b : Reg) | divu (d a b : Reg) | rem (d a b : Reg) | remu (d a b : Reg)
  | and (d a b : Reg) | or (d a b : Reg) | xor (d a b : Reg)
  | shl (d a b : Reg) | shr (d a b : Reg) | sra (d a b : Reg)
  | slt (d a b : Reg) | sltu (d a b : Reg) | min (d a b : Reg) | max (d a b : Reg)
  -- immediate forms (R65-R67), bit counts (R68)
  | addi (d a : Reg) (i : BitVec 12) | andi (d a : Reg) (i : BitVec 12) | ori (d a : Reg) (i : BitVec 12)
  | xori (d a : Reg) (i : BitVec 12) | slti (d a : Reg) (i : BitVec 12)
  | shli (d a : Reg) (n : BitVec 6) | shri (d a : Reg) (n : BitVec 6) | srai (d a : Reg) (n : BitVec 6)
  | lui (d : Reg) (i : BitVec 20) | pcrel (d : Reg) (i : BitVec 20)
  | clz (d a : Reg) | popc (d a : Reg)
  -- jumps, CELL, branches (R69-R71, R76)
  | jal (d : Reg) (i : BitVec 20) | jalr (d a : Reg) (i : BitVec 12)
  | cell (d a b : Reg) (op : BitVec 8) | cell3 (d a b c : Reg)
  | beq (a b : Reg) (i : BitVec 14) | bne (a b : Reg) (i : BitVec 14) | blt (a b : Reg) (i : BitVec 14)
  | bge (a b : Reg) (i : BitVec 14) | bltu (a b : Reg) (i : BitVec 14) | bgeu (a b : Reg) (i : BitVec 14)
  -- loads and stores (R72, R73)
  | ldb (d a : Reg) (i : BitVec 12) | ldbu (d a : Reg) (i : BitVec 12) | ldh (d a : Reg) (i : BitVec 12)
  | ldhu (d a : Reg) (i : BitVec 12) | ldw (d a : Reg) (i : BitVec 12) | ldwu (d a : Reg) (i : BitVec 12)
  | ldd (d a : Reg) (i : BitVec 12)
  | stb (a b : Reg) (i : BitVec 12) | sth (a b : Reg) (i : BitVec 12) | stw (a b : Reg) (i : BitVec 12)
  | std (a b : Reg) (i : BitVec 12)
  -- fabric commands (R237-R244)
  | cfgload (d a b : Reg) (p : BitVec 2) | cfgdrop (a : Reg) (p : BitVec 2) | glaunch (d a : Reg)
  | qpush (d a : Reg) (q : BitVec 6) | sigemit (a : Reg) (s : BitVec 6) | sigread (d a : Reg) (s : BitVec 6)
  | armsec (a b : Reg) | gwait (d a : Reg)
  -- synchronisation (R323-R329)
  | fence (s : BitVec 3) | amo (d a b : Reg) (o : BitVec 3) (z : BitVec 1) (s : BitVec 3)
  | chsend (a b : Reg) (e : BitVec 6) | chrecv (d : Reg) (e : BitVec 6) | chpoll (d : Reg) (e : BitVec 6)
  | barinit (a b : Reg) | bararr (a : Reg) | barwait (d a : Reg) | barinv (a : Reg)
  -- system (R420-R424)
  | trap (c : BitVec 12) | brk (c : BitVec 12)
  | crr (d : Reg) (c : BitVec 12) | crw (a : Reg) (c : BitVec 12) | hdlset (a : Reg) (e : BitVec 6)
  -- effects of a CRW by the acting core (R16, R231, R260, R266, R436, R416)
  | clockWrite (v : Word) | quantumWrite (v : Word) | astabWrite (v : Word) | tinvWrite (v : Word)
  | tinvComplete (core : CoreIx) | drainbWrite (v : Word)
  | gctlResume (g : GraphIx) | gctlEnd (g : GraphIx) | gctlDrop (g : GraphIx) | gctlNext (g : GraphIx)
  -- firings of compute cells (09)
  | fadd (e : Elt) | fsub (e : Elt) | fmul (e : Elt) | ffma (e : Elt) | fmax (e : Elt) | fmin (e : Elt)
  | frcp (e : Elt) | frsq (e : Elt) | fexp2 (e : Elt) | flog2 (e : Elt) | fscl (e : Elt) | fcmp (e : Elt)
  | fsel (e : Elt) | fcvt (e : Elt)
  | iadd (e : Elt) | isub (e : Elt) | imul (e : Elt) | imad (e : Elt) | iand (e : Elt) | ior (e : Elt)
  | ixor (e : Elt) | ishl (e : Elt) | ishr (e : Elt) | icmp (e : Elt) | imin (e : Elt) | imax (e : Elt)
  | lbcast (e : Elt) | lperm (e : Elt) | lred (e : Elt) | lscan (e : Elt) | lshift (e : Elt)
  | accum (e : Elt) | runmax (e : Elt) | count (e : Elt) | gen (e : Elt) | const (e : Elt) | delay (e : Elt)
  | rng (e : Elt) | cumsum (e : Elt) | icdf (e : Elt) | topk (e : Elt) | argmax (e : Elt)
  | sdadd (e : Elt) | sdmul (e : Elt) | sdcmp (e : Elt) | sdcut (e : Elt) | sdtow (e : Elt)
  -- matrix nodes (19)
  | mma (e : Elt) | smma (e : Elt) | mxcfg (e : Elt) | mxcfgMma (e : Elt) | mxcfgSmma (e : Elt)
  | accld (e : Elt) | accst (e : Elt) | mxcfgSetfmt (e : Elt) | matrixStep (e : Elt) | tilesExpire (e : Elt)
  -- fibre cells and router elements (10)
  | fscanc (e : Elt) | fscand (e : Elt) | fscanb (e : Elt) | fscant (e : Elt) | fisect (e : Elt) | funion (e : Elt)
  | frepeat (e : Elt) | freduce (e : Elt) | fdrop (e : Elt)
  | route (e : Elt) | steer (e : Elt) | merge (e : Elt) | join (e : Elt) | carry (e : Elt) | invar (e : Elt)
  | split (e : Elt) | order (e : Elt) | discard (e : Elt)
  -- memory-tile elements (16)
  | sprd (e : Elt) | spwr (e : Elt) | spbuf (e : Elt) | spfifo (e : Elt)
  | aadd (e : Elt) | afadd (e : Elt) | amax (e : Elt) | axchg (e : Elt) | acas (e : Elt)
  -- address generators (16, 17, 20)
  | affld (g : GenAt) | affst (g : GenAt) | gath (g : GenAt) | scat (g : GenAt) | rowg (g : GenAt)
  | bagsum (g : GenAt) | chld (g : GenAt) | chst (g : GenAt) | chamo (g : GenAt) | mnop (g : GenAt)
  | req (g : GenAt) | egress (g : GenAt) | camld (g : GenAt) | camg (g : GenAt) | camr (g : GenAt)
  | cams (g : GenAt) | pleat (g : GenAt) | ringput (g : GenAt)
  -- signal plane, queues, loader, region scheduler (06, 07, 11, 25)
  | instantResolve (g : GraphIx) | complIncrement (g : GraphIx)
  | queueTailSeen (q : BitVec 6)
  | configFrameArrive (g : GraphIx) (p : BitVec 2) | cfgLoadComplete (g : GraphIx) (p : BitVec 2)
  | quantumExpiry (g : GraphIx) | cutSave (g : GraphIx) | drainBudgetExpiry (g : GraphIx) | contextSaved (g : GraphIx)
  | contextRestore (g : GraphIx) | restoreComplete (g : GraphIx)
  | pageClone (g : GraphIx) (page : BitVec 6)
  | blockDispatch (g : GraphIx) (page : BitVec 6) (port : BitVec 2) | blockSchedule (g : GraphIx)
  -- fabric and memory traffic (08, 12, 14, 23)
  | skipRequest (e : Elt) | stageToken (e : Elt) | tileTransfer (g : GenAt) | memoryReply (g : GenAt)
  | pageWalk (core : CoreIx) (asid : BitVec 8) (va : BitVec 52) (kind : Access)
  | chainEntryArrive (g : GraphIx) (chain : BitVec 6) | chainRelease (g : GraphIx) (chain : BitVec 6)
  | chgapTimeout (g : GraphIx) (chain : BitVec 6)
  | pocketDrain (g : GraphIx) | elementFault (g : GraphIx) | replay (g : GraphIx)
  | graphCauseDelivery (core : CoreIx)
  | messageArrive (core : CoreIx) (e : BitVec 6) (m : BitVec 63) | messageDispatch (core : CoreIx)
  | atomicReceive (src : Nat) (id : BitVec 16) | atomicResend (src : Nat) (id : BitVec 16)
  | collectiveRequest (g : GenAt) | collectiveComplete (tag : BitVec 16) | collectiveTimeout (tag : BitVec 16)
  -- host, register block, mailbox (28, 29)
  | hostMemRead (off : Nat) (n : Nat) | hostMemWrite (off : Nat) (bs : List Byte)
  | releaseWrite (v : Word) | modnumWrite (v : Word) | qtableWrite (v : Word)
  | regblockWrite (off : BitVec 24) (v : Word)
  | keypub (m : Mailbox) | settime (m : Mailbox) | stampcfg (m : Mailbox) | ringcfg (m : Mailbox)
  | lock (m : Mailbox) | spareq (m : Mailbox) | checkpoint (m : Mailbox) | restore (m : Mailbox)
  | readsafe (m : Mailbox) | mkeyset (m : Mailbox) | mkeyget (m : Mailbox)
  -- reliability and the clock (29, 01, 05)
  | linkFlitReplay (port : Fin 8) | unitRetire (u : RetireUnit) | portDown (port : Fin 8)
  | thermalThrottle (die : Fin 4)
  | illegalInstruction (w : BitVec 32) | fetchFault (cause : Byte) (tval : Word)
  | portUp (port : Fin 8) | thermalThrottleEnd (die : Fin 4)
  | softError (t : SoftTarget) (uncorrectable : Bool)
  -- those without an operand (the compiler's limit on constructors with operands puts them last)
  | tret | waiti | hemSweep | distributorSelect | stallPeriod | releaseComplete | mbctlNext | checkpointDone
  | readsafeDone | configScrub | patrolScrub | thermalShutdown | deviceReset | cycle | coldReset
  deriving DecidableEq, Repr

end Sys2Proof
end

