-- ==== Sys2Proof/WellFormed.lean ====
section
/-! DEFINITION. Well-formedness of an instruction: what the encodings and the site pattern allow (03 R50-R57, 05 R83,
07 R144). -/

namespace Sys2Proof

/-- The 47 compute-cell opcode codes, rows 0x0-0x3 of the compute grid (R144). -/
def isCellCode (c : Nat) : Bool :=
  (1 ≤ c && c ≤ 0x0E) || (0x10 ≤ c && c ≤ 0x1B) || (0x20 ≤ c && c ≤ 0x24) || (0x28 ≤ c && c ≤ 0x2D) ||
  (0x30 ≤ c && c ≤ 0x34) || (0x38 ≤ c && c ≤ 0x3C)

/-- The kind of site at an index of the region's site pattern (R83). -/
inductive SiteKind where
  | cell | tile | matrix | fibre | port
  deriving DecidableEq, Repr, Inhabited

/-- The site pattern of every region (R83). -/
def siteKind (site : Fin 16) : SiteKind :=
  match site.val with
  | 2 | 13 => .tile
  | 5 => .matrix
  | 7 | 8 => .fibre
  | 15 => .port
  | _ => .cell

/-- An element's site has the kind its opcode needs (R39). -/
def atKind (k : SiteKind) (e : Elt) : Bool := decide (siteKind e.site = k)

/-- Bytes of device memory that the host sees: the 384 GiB of the interleaved window (R466). -/
def hostMemBytes : Nat := 0x600000000000 / 0x100

/-- The checks by which a term of `Instr` can be ill formed. -/
inductive WfCheck where
  | cellCode      -- CELL names a code that is not one of the 47 (R53, R57)
  | fenceScope    -- FENCE scope above 5 (R56)
  | amoOp         -- AMO operation code 7 (R56)
  | amoScope      -- AMO scope above 5 (R56)
  | site          -- an element opcode at a site of another kind (R39)
  | hostRange     -- a host access outside the exposed memory (R466)
  | regOffset     -- a register-block access that is not an aligned 8-byte one (R459)
  | fetchCause    -- a cause that no fetch raises (R59)
  deriving DecidableEq, Repr, Inhabited

/-- The causes a fetch can raise: 0x20, the translation causes, and those of a word that cannot be delivered (R59). -/
def isFetchCause (c : Nat) : Bool :=
  (0x20 ≤ c && c ≤ 0x25) || c == 0x27 || c == 0xB0 || c == 0xB1 || c == 0xB3

/-- The first check that an instruction fails, if any. -/
def wfFailure : Instr → Option WfCheck
  | .cell _ _ _ op => if isCellCode op.toNat then none else some .cellCode
  | .fence s => if s.toNat ≤ 5 then none else some .fenceScope
  | .amo _ _ _ o _ s => if o.toNat = 7 then some .amoOp else if s.toNat ≤ 5 then none else some .amoScope
  | .fadd e | .fsub e | .fmul e | .ffma e | .fmax e | .fmin e | .frcp e | .frsq e | .fexp2 e | .flog2 e | .fscl e
  | .fcmp e | .fsel e | .fcvt e | .iadd e | .isub e | .imul e | .imad e | .iand e | .ior e | .ixor e | .ishl e
  | .ishr e | .icmp e | .imin e | .imax e | .lbcast e | .lperm e | .lred e | .lscan e | .lshift e | .accum e
  | .runmax e | .count e | .gen e | .const e | .delay e | .rng e | .cumsum e | .icdf e | .topk e | .argmax e
  | .sdadd e | .sdmul e | .sdcmp e | .sdcut e | .sdtow e =>
      if atKind .cell e then none else some .site
  | .mma e | .smma e | .mxcfg e | .mxcfgMma e | .mxcfgSmma e | .accld e | .accst e | .mxcfgSetfmt e
  | .matrixStep e | .tilesExpire e => if atKind .matrix e then none else some .site
  | .fscanc e | .fscand e | .fscanb e | .fscant e | .fisect e | .funion e | .frepeat e | .freduce e | .fdrop e =>
      if atKind .fibre e then none else some .site
  | .sprd e | .spwr e | .spbuf e | .spfifo e | .aadd e | .afadd e | .amax e | .axchg e | .acas e =>
      if atKind .tile e then none else some .site
  | .hostMemRead off n => if off + n ≤ hostMemBytes then none else some .hostRange
  | .hostMemWrite off bs => if off + bs.length ≤ hostMemBytes then none else some .hostRange
  | .regblockWrite off _ => if off.toNat % 8 = 0 then none else some .regOffset
  | .fetchFault c _ => if isFetchCause c.toNat then none else some .fetchCause
  | _ => none

/-- An instruction is well formed when no check fails. -/
def WellFormed (i : Instr) : Prop := wfFailure i = none

end Sys2Proof
end

