-- ==== Sys2Proof/Decode.lean ====
section
/-! DEFINITION. The decoder of the control core's instruction words and its encoder (03 R48-R57). A word is read as a
natural number, bit 0 the least significant; every field is a quotient and a remainder by powers of two. -/

namespace Sys2Proof

/-- Why a word is an illegal instruction (R57): every one of these raises 0xA3 with TVAL the word. -/
inductive DecodeError where
  | major        -- ill major opcode (R50)
  | selector     -- ill selector (R51, R52)
  | rangeK       -- a k value outside its range (R56)
  | reserved     -- a non-zero reserved field (R57)
  | cellCode     -- fn8 of CELL is no compute-cell opcode (R53)
  | short        -- fewer than four bytes were given
  deriving DecidableEq, Repr

/-- Bits [lo+n-1 : lo] of a number (R1). -/
def bits (w lo n : Nat) : Nat := w / 2 ^ lo % 2 ^ n

/-- A register field at a bit position (R48). -/
def regAt (w lo : Nat) : Reg := Fin.ofNat 64 (w / 2 ^ lo)

/-- An immediate field of n bits. -/
def immAt (w lo n : Nat) : BitVec n := BitVec.ofNat n (w / 2 ^ lo)

/-- Accept an instruction when its reserved fields are zero. -/
def needZero (reserved : Nat) (i : Instr) : Except DecodeError Instr :=
  if reserved = 0 then .ok i else .error .reserved

/-- The 12-bit S immediate, immhi : immlo (R49). -/
def immS (w : Nat) : BitVec 12 := BitVec.ofNat 12 (bits w 24 6 * 64 + bits w 6 6)

/-- The 14-bit B immediate, immhi : immlo (R49). -/
def immB (w : Nat) : BitVec 14 := BitVec.ofNat 14 (bits w 24 8 * 64 + bits w 6 6)

/-- IREG: the members chosen by fn8 (R51). -/
def decodeIreg (w : Nat) : Except DecodeError Instr :=
  let d := regAt w 6
  let a := regAt w 12
  let b := regAt w 18
  match bits w 24 8 with
  | 0x00 => .ok (.add d a b) | 0x01 => .ok (.sub d a b) | 0x02 => .ok (.mul d a b) | 0x03 => .ok (.mulh d a b)
  | 0x04 => .ok (.mulhu d a b) | 0x05 => .ok (.div d a b) | 0x06 => .ok (.divu d a b) | 0x07 => .ok (.rem d a b)
  | 0x08 => .ok (.remu d a b) | 0x09 => .ok (.and d a b) | 0x0A => .ok (.or d a b) | 0x0B => .ok (.xor d a b)
  | 0x0C => .ok (.shl d a b) | 0x0D => .ok (.shr d a b) | 0x0E => .ok (.sra d a b) | 0x0F => .ok (.slt d a b)
  | 0x10 => .ok (.sltu d a b) | 0x11 => .ok (.min d a b) | 0x12 => .ok (.max d a b)
  | _ => .error .selector

/-- The immediate-form instructions share the check fn2 = 00 (R53). -/
def decodeI (w : Nat) (f : Reg → Reg → BitVec 12 → Instr) : Except DecodeError Instr :=
  if bits w 18 2 = 0 then .ok (f (regAt w 6) (regAt w 12) (immAt w 20 12)) else .error .reserved

/-- SHIFTI: fn2 selects, [31:26] must be zero (R52, R66). -/
def decodeShifti (w : Nat) : Except DecodeError Instr :=
  let d := regAt w 6
  let a := regAt w 12
  let n := immAt w 20 6
  match bits w 18 2 with
  | 0 => needZero (bits w 26 6) (.shli d a n)
  | 1 => needZero (bits w 26 6) (.shri d a n)
  | 2 => needZero (bits w 26 6) (.srai d a n)
  | _ => .error .selector

/-- BITC: fn8 selects, rs2 zero (R52, R68). -/
def decodeBitc (w : Nat) : Except DecodeError Instr :=
  match bits w 24 8 with
  | 0 => needZero (bits w 18 6) (.clz (regAt w 6) (regAt w 12))
  | 1 => needZero (bits w 18 6) (.popc (regAt w 6) (regAt w 12))
  | _ => .error .selector

/-- CELL: fn8 is a compute-cell opcode code (R53, R57). -/
def decodeCell (w : Nat) : Except DecodeError Instr :=
  if isCellCode (bits w 24 8) then .ok (.cell (regAt w 6) (regAt w 12) (regAt w 18) (immAt w 24 8))
  else .error .cellCode

/-- The stores: [31:30] zero (R48, R73). -/
def decodeS (w : Nat) (f : Reg → Reg → BitVec 12 → Instr) : Except DecodeError Instr :=
  needZero (bits w 30 2) (f (regAt w 12) (regAt w 18) (immS w))

/-- The fabric commands of op 0x28-0x2F (R56): k is fn8, and unused register fields are zero. -/
def decodeFabric (w op : Nat) : Except DecodeError Instr :=
  let d := regAt w 6
  let a := regAt w 12
  let b := regAt w 18
  let k := bits w 24 8
  match op with
  | 0x28 => if k < 4 then .ok (.cfgload d a b (immAt w 24 2)) else .error .rangeK
  | 0x29 => if k < 4 then needZero (bits w 18 6 + bits w 6 6) (.cfgdrop a (immAt w 24 2)) else .error .rangeK
  | 0x2A => if k = 0 then needZero (bits w 18 6) (.glaunch d a) else .error .rangeK
  | 0x2B => if k < 64 then needZero (bits w 18 6) (.qpush d a (immAt w 24 6)) else .error .rangeK
  | 0x2C => if k < 64 then needZero (bits w 18 6 + bits w 6 6) (.sigemit a (immAt w 24 6)) else .error .rangeK
  | 0x2D => if k < 64 then needZero (bits w 18 6) (.sigread d a (immAt w 24 6)) else .error .rangeK
  | 0x2E => if k = 0 then needZero (bits w 6 6) (.armsec a b) else .error .rangeK
  | 0x2F => if k = 0 then needZero (bits w 18 6) (.gwait d a) else .error .rangeK
  | _ => .error .major

/-- FENCE: scope 0-5 in fn8, no register (R56). -/
def decodeFence (w : Nat) : Except DecodeError Instr :=
  if bits w 24 8 ≤ 5 then needZero (bits w 6 18) (.fence (immAt w 24 3)) else .error .rangeK

/-- AMO: [2:0] operation, [3] size, [6:4] scope, [7] zero, all within fn8 (R56). -/
def decodeAmo (w : Nat) : Except DecodeError Instr :=
  if bits w 31 1 = 0 ∧ bits w 24 3 ≠ 7 ∧ bits w 28 3 ≤ 5 then
    .ok (.amo (regAt w 6) (regAt w 12) (regAt w 18) (immAt w 24 3) (immAt w 27 1) (immAt w 28 3))
  else .error .rangeK

/-- CHAN: fn8[1:0] selects, fn8[7:2] is the endpoint (R52, R56). -/
def decodeChan (w : Nat) : Except DecodeError Instr :=
  let e : BitVec 6 := immAt w 26 6
  match bits w 24 2 with
  | 0 => needZero (bits w 6 6) (.chsend (regAt w 12) (regAt w 18) e)
  | 1 => needZero (bits w 12 12) (.chrecv (regAt w 6) e)
  | 2 => needZero (bits w 12 12) (.chpoll (regAt w 6) e)
  | _ => .error .selector

/-- BAR: fn8[1:0] selects, fn8[7:2] zero (R52, R56). -/
def decodeBar (w : Nat) : Except DecodeError Instr :=
  if bits w 26 6 = 0 then
    match bits w 24 2 with
    | 0 => needZero (bits w 6 6) (.barinit (regAt w 12) (regAt w 18))
    | 1 => needZero (bits w 6 6 + bits w 18 6) (.bararr (regAt w 12))
    | 2 => needZero (bits w 18 6) (.barwait (regAt w 6) (regAt w 12))
    | _ => needZero (bits w 6 6 + bits w 18 6) (.barinv (regAt w 12))
  else .error .rangeK

/-- SYS: fn8 selects (R52, R56). -/
def decodeSys (w : Nat) : Except DecodeError Instr :=
  match bits w 24 8 with
  | 0 => needZero (bits w 6 6) (.trap (immAt w 12 12))
  | 1 => needZero (bits w 6 18) .tret
  | 2 => needZero (bits w 6 18) .waiti
  | 3 => needZero (bits w 6 6) (.brk (immAt w 12 12))
  | _ => .error .selector

/-- The decoder of one 32-bit word by its major opcode (R50). -/
def decodeWord (w : Nat) : Except DecodeError Instr :=
  match bits w 0 6 with
  | 0x01 => decodeIreg w
  | 0x02 => decodeI w .addi | 0x03 => decodeI w .andi | 0x04 => decodeI w .ori | 0x05 => decodeI w .xori
  | 0x06 => decodeI w .slti
  | 0x07 => decodeShifti w
  | 0x08 => .ok (.lui (regAt w 6) (immAt w 12 20))
  | 0x09 => .ok (.pcrel (regAt w 6) (immAt w 12 20))
  | 0x0A => decodeBitc w
  | 0x0B => .ok (.jal (regAt w 6) (immAt w 12 20))
  | 0x0C => decodeI w .jalr
  | 0x0E => decodeCell w
  | 0x0F => needZero (bits w 30 2) (.cell3 (regAt w 6) (regAt w 12) (regAt w 18) (regAt w 24))
  | 0x10 => .ok (.beq (regAt w 12) (regAt w 18) (immB w)) | 0x11 => .ok (.bne (regAt w 12) (regAt w 18) (immB w))
  | 0x12 => .ok (.blt (regAt w 12) (regAt w 18) (immB w)) | 0x13 => .ok (.bge (regAt w 12) (regAt w 18) (immB w))
  | 0x14 => .ok (.bltu (regAt w 12) (regAt w 18) (immB w)) | 0x15 => .ok (.bgeu (regAt w 12) (regAt w 18) (immB w))
  | 0x18 => decodeI w .ldb | 0x19 => decodeI w .ldbu | 0x1A => decodeI w .ldh | 0x1B => decodeI w .ldhu
  | 0x1C => decodeI w .ldw | 0x1D => decodeI w .ldwu | 0x1E => decodeI w .ldd
  | 0x20 => decodeS w .stb | 0x21 => decodeS w .sth | 0x22 => decodeS w .stw | 0x23 => decodeS w .std
  | 0x28 => decodeFabric w 0x28 | 0x29 => decodeFabric w 0x29 | 0x2A => decodeFabric w 0x2A
  | 0x2B => decodeFabric w 0x2B | 0x2C => decodeFabric w 0x2C | 0x2D => decodeFabric w 0x2D
  | 0x2E => decodeFabric w 0x2E | 0x2F => decodeFabric w 0x2F
  | 0x30 => decodeFence w
  | 0x31 => decodeAmo w
  | 0x32 => decodeChan w
  | 0x33 => decodeBar w
  | 0x38 => decodeSys w
  | 0x39 => needZero (bits w 12 8) (.crr (regAt w 6) (immAt w 20 12))
  | 0x3A => needZero (bits w 6 6 + bits w 18 2) (.crw (regAt w 12) (immAt w 20 12))
  | 0x3B =>
      if bits w 24 8 < 64 then needZero (bits w 6 6 + bits w 18 6) (.hdlset (regAt w 12) (immAt w 24 6))
      else .error .rangeK
  | _ => .error .major

/-- The number that bytes stand for, the lowest address first (R11). -/
def leNat : List Byte → Nat
  | [] => 0
  | b :: bs => b.toNat + 256 * leNat bs

/-- The n bytes of a number, the lowest address first. -/
def leBytes : Nat → Nat → List Byte
  | 0, _ => []
  | n + 1, v => BitVec.ofNat 8 v :: leBytes n (v / 256)

/-- The decoder on bytes in address order: one instruction and the bytes after it, or the name of the rejection. -/
def decode (bs : List Byte) : Except DecodeError (Instr × List Byte) :=
  if bs.length < 4 then .error .short
  else match decodeWord (leNat (bs.take 4)) with
    | .ok i => .ok (i, bs.drop 4)
    | .error r => .error r

/-- What the decoder reads from an instruction whose bits are w, as the opcode table numbers them: a control-core
instruction is one little-endian 32-bit word (R11). -/
def decodeTableWord (nbits w : Nat) : Option Instr :=
  match decode (leBytes 4 (w % 2 ^ nbits)) with
  | .ok (i, _) => some i
  | .error _ => none

/-! ### The encoder, from the same tables -/

/-- Format R: fn8, rs2, rs1, rd, op (R48). -/
def encR (op d a b k : Nat) : Nat := op + 64 * d + 4096 * a + 2 ^ 18 * b + 2 ^ 24 * k
/-- Format I: imm12, fn2, rs1, rd, op (R48). -/
def encI (op d a fn2 i : Nat) : Nat := op + 64 * d + 4096 * a + 2 ^ 18 * fn2 + 2 ^ 20 * i
/-- Formats U and J: imm20, rd, op (R48). -/
def encU (op d i : Nat) : Nat := op + 64 * d + 4096 * i
/-- Formats S and B: immhi, rs2, rs1, immlo, op (R48). -/
def encSB (op a b i : Nat) : Nat := op + 64 * (i % 64) + 4096 * a + 2 ^ 18 * b + 2 ^ 24 * (i / 64)

/-- The word of a scalar instruction; the steps of the device that are no instruction words have none. -/
def encodeNat : Instr → Option Nat
  | .add d a b => some (encR 1 d a b 0x00) | .sub d a b => some (encR 1 d a b 0x01)
  | .mul d a b => some (encR 1 d a b 0x02) | .mulh d a b => some (encR 1 d a b 0x03)
  | .mulhu d a b => some (encR 1 d a b 0x04) | .div d a b => some (encR 1 d a b 0x05)
  | .divu d a b => some (encR 1 d a b 0x06) | .rem d a b => some (encR 1 d a b 0x07)
  | .remu d a b => some (encR 1 d a b 0x08) | .and d a b => some (encR 1 d a b 0x09)
  | .or d a b => some (encR 1 d a b 0x0A) | .xor d a b => some (encR 1 d a b 0x0B)
  | .shl d a b => some (encR 1 d a b 0x0C) | .shr d a b => some (encR 1 d a b 0x0D)
  | .sra d a b => some (encR 1 d a b 0x0E) | .slt d a b => some (encR 1 d a b 0x0F)
  | .sltu d a b => some (encR 1 d a b 0x10) | .min d a b => some (encR 1 d a b 0x11)
  | .max d a b => some (encR 1 d a b 0x12)
  | .addi d a i => some (encI 2 d a 0 i.toNat) | .andi d a i => some (encI 3 d a 0 i.toNat)
  | .ori d a i => some (encI 4 d a 0 i.toNat) | .xori d a i => some (encI 5 d a 0 i.toNat)
  | .slti d a i => some (encI 6 d a 0 i.toNat)
  | .shli d a n => some (encI 7 d a 0 n.toNat) | .shri d a n => some (encI 7 d a 1 n.toNat)
  | .srai d a n => some (encI 7 d a 2 n.toNat)
  | .lui d i => some (encU 8 d i.toNat) | .pcrel d i => some (encU 9 d i.toNat)
  | .clz d a => some (encR 0x0A d a 0 0) | .popc d a => some (encR 0x0A d a 0 1)
  | .jal d i => some (encU 0x0B d i.toNat) | .jalr d a i => some (encI 0x0C d a 0 i.toNat)
  | .cell d a b op => some (encR 0x0E d a b op.toNat) | .cell3 d a b c => some (encR 0x0F d a b c)
  | .beq a b i => some (encSB 0x10 a b i.toNat) | .bne a b i => some (encSB 0x11 a b i.toNat)
  | .blt a b i => some (encSB 0x12 a b i.toNat) | .bge a b i => some (encSB 0x13 a b i.toNat)
  | .bltu a b i => some (encSB 0x14 a b i.toNat) | .bgeu a b i => some (encSB 0x15 a b i.toNat)
  | .ldb d a i => some (encI 0x18 d a 0 i.toNat) | .ldbu d a i => some (encI 0x19 d a 0 i.toNat)
  | .ldh d a i => some (encI 0x1A d a 0 i.toNat) | .ldhu d a i => some (encI 0x1B d a 0 i.toNat)
  | .ldw d a i => some (encI 0x1C d a 0 i.toNat) | .ldwu d a i => some (encI 0x1D d a 0 i.toNat)
  | .ldd d a i => some (encI 0x1E d a 0 i.toNat)
  | .stb a b i => some (encSB 0x20 a b i.toNat) | .sth a b i => some (encSB 0x21 a b i.toNat)
  | .stw a b i => some (encSB 0x22 a b i.toNat) | .std a b i => some (encSB 0x23 a b i.toNat)
  | .cfgload d a b p => some (encR 0x28 d a b p.toNat) | .cfgdrop a p => some (encR 0x29 0 a 0 p.toNat)
  | .glaunch d a => some (encR 0x2A d a 0 0) | .qpush d a q => some (encR 0x2B d a 0 q.toNat)
  | .sigemit a s => some (encR 0x2C 0 a 0 s.toNat) | .sigread d a s => some (encR 0x2D d a 0 s.toNat)
  | .armsec a b => some (encR 0x2E 0 a b 0) | .gwait d a => some (encR 0x2F d a 0 0)
  | .fence s => some (encR 0x30 0 0 0 s.toNat)
  | .amo d a b o z s => some (encR 0x31 d a b (o.toNat + 8 * z.toNat + 16 * s.toNat))
  | .chsend a b e => some (encR 0x32 0 a b (4 * e.toNat)) | .chrecv d e => some (encR 0x32 d 0 0 (1 + 4 * e.toNat))
  | .chpoll d e => some (encR 0x32 d 0 0 (2 + 4 * e.toNat))
  | .barinit a b => some (encR 0x33 0 a b 0) | .bararr a => some (encR 0x33 0 a 0 1)
  | .barwait d a => some (encR 0x33 d a 0 2) | .barinv a => some (encR 0x33 0 a 0 3)
  | .trap c => some (0x38 + 4096 * c.toNat) | .tret => some (encR 0x38 0 0 0 1) | .waiti => some (encR 0x38 0 0 0 2)
  | .brk c => some (0x38 + 4096 * c.toNat + 2 ^ 24 * 3)
  | .crr d c => some (encI 0x39 d 0 0 c.toNat) | .crw a c => some (encI 0x3A 0 a 0 c.toNat)
  | .hdlset a e => some (encR 0x3B 0 a 0 e.toNat)
  | _ => none

/-- The 32-bit word of an instruction that has one. -/
def encode (i : Instr) : Option (BitVec 32) := (encodeNat i).map (BitVec.ofNat 32)

end Sys2Proof
end

