-- ==== Sys2Proof/Machine/Assoc.lean ====
section
/-! DEFINITION. Sparse data by key: a list of key and value pairs, keys strictly rising, no entry equal to what an
unlisted key reads as. Memory, register files and tables of the device are kept so. -/

namespace Sys2Proof.Machine

/-- Data by natural-number key. -/
abbrev SMap (α : Type) := List (Nat × α)

/-- The value at key k; d where k is not listed. -/
def SMap.get {α : Type} (d : α) : SMap α → Nat → α
  | [], _ => d
  | (k', v) :: r, k => if k' = k then v else SMap.get d r k

/-- The list without key k. -/
def SMap.erase {α : Type} : SMap α → Nat → SMap α
  | [], _ => []
  | (k', v) :: r, k => if k' = k then SMap.erase r k else (k', v) :: SMap.erase r k

/-- k and v in front of the first larger key. -/
def SMap.insert {α : Type} : SMap α → Nat → α → SMap α
  | [], k, v => [(k, v)]
  | (k', v') :: r, k, v => if k < k' then (k, v) :: (k', v') :: r else (k', v') :: SMap.insert r k v

/-- The map that reads v at k and is otherwise as before; the canonical form is kept. -/
def SMap.set {α : Type} [DecidableEq α] (d : α) (m : SMap α) (k : Nat) (v : α) : SMap α :=
  if v = d then m.erase k else (m.erase k).insert k v

/-- The map changed by f at k. -/
def SMap.upd {α : Type} [DecidableEq α] (d : α) (m : SMap α) (k : Nat) (f : α → α) : SMap α :=
  m.set d k (f (m.get d k))

/-- Keys strictly rising from a bound, and no entry equal to the default. -/
def SMap.wfFrom {α : Type} [DecidableEq α] (d : α) : Nat → SMap α → Bool
  | _, [] => true
  | lo, (k, v) :: r => decide (lo ≤ k) && decide (v ≠ d) && SMap.wfFrom d (k + 1) r

/-- The canonical form. -/
def SMap.wf {α : Type} [DecidableEq α] (d : α) (m : SMap α) : Bool := SMap.wfFrom d 0 m

/-- The map with f applied to every listed value; entries that become the default leave the list. -/
def SMap.mapV {α : Type} [DecidableEq α] (d : α) (f : Nat → α → α) : SMap α → SMap α
  | [] => []
  | (k, v) :: r => if f k v = d then SMap.mapV d f r else (k, f k v) :: SMap.mapV d f r

/-- n consecutive values from key k upward. -/
def SMap.getN {α : Type} (d : α) (m : SMap α) : Nat → Nat → List α
  | _, 0 => []
  | k, n + 1 => m.get d k :: SMap.getN d m (k + 1) n

/-- Consecutive values written from key k upward. -/
def SMap.setN {α : Type} [DecidableEq α] (d : α) : SMap α → Nat → List α → SMap α
  | m, _, [] => m
  | m, k, v :: vs => SMap.setN d (m.set d k v) (k + 1) vs

/-- Device memory: bytes by storage key, an unlisted byte reading 0 (log entry 5). -/
abbrev Memory := SMap Byte

/-- The canonical form of memory: addresses strictly rising, no entry equal to what an unlisted address reads as. -/
def Memory.wf (m : Memory) : Bool := SMap.wf 0 m

end Sys2Proof.Machine
end

