-- ==== Sys2Proof/Machine/State.lean ====
section
/-! DEFINITION. The state of the whole module as plain data, the reasons a step can stop, and the state after reset. -/

namespace Sys2Proof.Machine

/-- Why the machine stops with a fault: it never does. Every case of the spec ends in a named outcome or in a cause code
(R5), so no operation raises a fault and the type has no constructor (log entry 57). -/
inductive Fault where
  deriving DecidableEq, Repr

/-- Why the model gives a step no meaning. -/
inductive Refusal where
  /-- The instruction has no meaning in the model yet; raised by the dispatcher only. Safe. -/
  | notModelled (mnemonic : String)
  deriving DecidableEq, Repr

/-- One turn of the device: a control core runs one instruction, or a step of the device takes place. -/
inductive Turn where
  | core (c : CoreIx)
  | event (i : Instr)
  deriving DecidableEq, Repr

/-! ### The control core -/

/-- CORESTAT of a core (R459). -/
inductive RunState where
  | held | running | stopped | retired
  deriving DecidableEq, Repr, Inhabited

/-- A cached translation: address space, page number at the entry's own size, index of the lowest page-offset bit above
it, and the leaf entry read (R264, R262). -/
structure TlbEntry where
  asid : Byte
  page : Nat
  lo   : Nat
  leaf : Word
  deriving DecidableEq, Repr

/-- A hardware barrier that is ACTIVE (R329). -/
structure Barrier where
  active : Bool
  count  : BitVec 16
  arr    : BitVec 16
  gen    : BitVec 16
  deriving DecidableEq, Repr

/-- The barrier FREE (R328). -/
def Barrier.free : Barrier := ⟨false, 0, 0, 0⟩

/-- What a message in an endpoint's queue waits for: CHRECV, its dispatch, or a handler (R417). -/
inductive MsgUse where
  | recv | disp | parked
  deriving DecidableEq, Repr

/-- What a core waits for beyond its own turn: the phase of a barrier with the register that receives the status
(R329), the completion of an invalidation (R266), a delivery (R422), or the answer of an atomic (R322). -/
inductive Wait where
  | none
  | barrier (name : Nat) (target : BitVec 16) (rd : Reg)
  | tinv (v : Word)
  | waiti
  | atomic (id : BitVec 16)
  deriving DecidableEq, Repr

/-- A cause to be delivered at a core: TCAUSE's two fields, TVAL, and the fault record where it is a graph cause
(R412-R415). -/
structure Pending where
  cause  : Byte
  imp    : Bool
  tval   : Word
  record : List Byte
  deriving DecidableEq, Repr

/-- One control core (R9, R14, R54, R260, R274, R412, R436). -/
structure Core where
  run       : RunState
  x         : SMap Word                -- x1-x63; an unlisted register holds 0
  pc        : Word
  status    : Word
  tvec      : Word
  tcause    : Word
  tval      : Word
  epc       : Word
  clock     : Word
  clockNext : Option Word              -- a value written to CLOCK in this cycle (R16)
  quantum   : Word
  cmod      : Word
  asid      : Byte
  cvtev     : Word
  frec      : Word
  drainb    : BitVec 16
  wait      : Wait
  istale    : SMap (List (BitVec 32))  -- older words since the last FENCE, by word of storage (R21)
  dtlb      : List TlbEntry
  itlb      : List TlbEntry
  queues    : SMap (List (MsgUse × BitVec 63)) -- messages of each endpoint, oldest first (R325, R417)
  handlers  : SMap Word                -- handler table (R417)
  barriers  : SMap Barrier             -- hardware barriers (R328)
  pending   : List Pending             -- undelivered causes, in the order raised (R415)
  dispatch  : List (BitVec 6)          -- endpoints of messages dispatched or parked, in order of arrival (R415, R417)
  atomId    : BitVec 16                -- id of the next atomic (R322)
  spoiled   : List Reg                 -- registers whose word is uncorrectable until it is written (R477)
  deriving DecidableEq, Repr

/-- A core as reset leaves it: held, registers 0, control registers at their reset values (R14, R25). -/
def Core.reset : Core :=
  { run := .held, x := [], pc := 0, status := 4, tvec := 0, tcause := 0, tval := 0, epc := 0, clock := 0,
    clockNext := none, quantum := 16, cmod := 0, asid := 0, cvtev := 0, frec := 0, drainb := 64, wait := .none,
    istale := [], dtlb := [], itlb := [], queues := [], handlers := [], barriers := [], pending := [], dispatch := [],
    atomId := 0, spoiled := [] }

/-! ### The fabric -/

/-- A token (R88-R90). KIND 0 is a value, 1-6 a stop of level 0-5, 7 D. The reserved bits are always written zero. -/
structure Token where
  kind  : Fin 8
  err   : Bool
  fill  : Bool
  mask  : BitVec 16
  lanes : List Lane                    -- 16 lanes
  deriving DecidableEq, Repr

/-- A link stage, a port stage or a stream of the stream switch: its tokens, head first, its slot return at the end of the
last cycle, and how many tokens it holds at most (R92, R93, R228). -/
structure Stage where
  toks : List Token
  ret  : Bool
  cap  : Nat
  deriving DecidableEq, Repr

/-- An empty stage of two tokens. -/
def Stage.empty : Stage := ⟨[], true, 2⟩

/-- An output port: the token that stands in it and the token written in this cycle (R95). -/
structure OutPort where
  cur : Option Token
  nxt : Option Token
  deriving DecidableEq, Repr

/-- An empty output port. -/
def OutPort.empty : OutPort := ⟨none, none⟩

/-- The event flags of a signal face (R109). -/
structure Face where
  done  : Bool
  err   : Bool
  mark  : Bool
  truth : Bool
  any   : Bool
  deriving DecidableEq, Repr

/-- No event. -/
def Face.clear : Face := ⟨false, false, false, false, false⟩

/-- The group a signed-digit cell is in (R162, R188): headers and planes read, planes emitted, whether the rest is
discarded. -/
structure Digits where
  hdrA : Option Token
  hdrB : Option Token
  plA  : List Token
  plB  : List Token
  out  : List (List Int)
  cut  : Bool
  stop : Option Token                  -- the closing token consumed, while planes are still owed
  deriving DecidableEq, Repr

/-- No group open. -/
def Digits.none : Digits := ⟨.none, .none, [], [], [], false, .none⟩

/-- The state of a compute cell within a fibre (R172, R182-R191). -/
structure Cell where
  acc   : List Lane                    -- sums or maxima by lane; empty at reset
  cnt   : List Nat                     -- counts by lane (COUNT)
  mask  : BitVec 16                    -- MASKs consumed, united
  fill  : Bool                         -- F bits consumed, united
  seen  : Bool                         -- a value was consumed since the reset
  n     : Nat                          -- position in the fibre, or firings of GEN
  out   : Nat                          -- result tokens emitted at the present closing
  line  : List Token                   -- the line of DELAY, oldest first
  ranks : List (List (Lane × Nat))     -- ranked values and indices by lane
  thr   : Option Token                 -- the threshold token of ICDF
  found : List (Option Nat)            -- ICDF's first index above the threshold, by lane
  last  : List (Option Nat)            -- ICDF's last valid index, by lane
  dig   : Digits
  deriving DecidableEq, Repr

/-- A cell after reset (R98). -/
def Cell.reset : Cell := ⟨[], [], 0, false, false, 0, 0, [], [], none, [], [], .none⟩

/-- The state of a fibre cell (R210-R216). -/
structure Fibre where
  i     : Nat                          -- tokens emitted of a scan or a repeat, or the bit of the mask that is next
  n     : Nat                          -- ordinal within the output fibre
  j     : Nat                          -- mask tokens consumed of the fibre
  pa    : Nat                          -- position in A's fibre, or A's set bits in the masks consumed
  pb    : Nat
  ca    : Option Int                   -- previous coordinate of A, of B
  cb    : Option Int
  rootA : Option (List Nat)            -- root bits of a bit tree whose leaves are still to come, and of B
  rootB : Option (List Nat)
  acc   : List Lane                    -- the reduction so far
  mask  : BitVec 16
  seen  : Bool                         -- a value was consumed since the last stop
  out   : Bool                         -- the result of a closing has been emitted
  open_ : Bool                         -- a value was emitted since the last stop (FDROP)
  deriving DecidableEq, Repr

/-- A fibre cell after reset. -/
def Fibre.reset : Fibre := ⟨0, 0, 0, 0, 0, none, none, none, none, [], 0, false, false, false⟩

/-- The state of a router element (R199). -/
structure Router where
  turn    : Bool                       -- the second input or output has its turn
  occ     : Int
  closing : Bool
  half    : Nat                        -- how far INVAR is in a closing that takes two tokens of P
  deriving DecidableEq, Repr

/-- A router element after reset. -/
def Router.reset : Router := ⟨false, 0, false, 0⟩

/-- What one half of a site, its element or its router, does besides its state: its drain, the discarding after a skip request, its face, the
parity of stops emitted, and its firings in the window (R102, R109, R165, R413). -/
structure Half where
  drain  : Option (List Nat)           -- ports whose D the drain has consumed
  dOut   : List Nat                    -- outputs that still owe the drain's D
  skip   : Bool
  asked  : List Bool                   -- skip requests that have arrived, by parity
  face   : Face
  parity : Bool
  firing : Nat
  fired  : Bool                        -- fired in this cycle
  send   : Option Bool                 -- a skip request to send upstream, with its parity
  deriving DecidableEq, Repr

/-- An element that has done nothing. -/
def Half.reset : Half := ⟨none, [], false, [], .clear, false, 0, false, none⟩

/-- The state of a memory tile's ring and element, per plane (R248, R306, R307). -/
structure Tile where
  ring : SMap Byte                     -- status byte of each stage; an unlisted stage is EMPTY
  pp   : Nat
  cp   : Nat
  pos  : Nat                           -- bytes written into, or tokens emitted from, the stage SPBUF holds
  deriving DecidableEq, Repr

/-- A tile element after reset. -/
def Tile.reset : Tile := ⟨[], 0, 0, 0⟩

/-- A command that an MXCFG node carries out: its code and the steps left (R368). -/
structure MxCommand where
  code : Nat
  left : Nat
  deriving DecidableEq, Repr

/-- The state of a matrix node, per plane (R357, R366-R368). -/
structure Matrix where
  acc    : SMap (BitVec 32)            -- entry 32m + n; an unlisted entry is +0
  buf    : List Token                  -- the output buffer, what is still to be emitted
  steps  : Nat                         -- steps done in the group
  begun  : Bool                        -- the group has its starting accumulator
  load   : Nat                         -- tokens of the shape read from port C so far
  held   : SMap (BitVec 32)            -- the accumulator being read from port C
  due    : Bool                        -- the group's copy waits for an empty buffer
  tiles  : Option Nat                  -- steps left of the arm; none, no limit
  halted : Bool                        -- performs no step until it is armed again
  expire : Bool                        -- the count ran out: D and DONE are still to come
  afmt   : Option Nat                  -- formats set by MXCFG; none, those of the frame
  bfmt   : Option Nat
  cmd    : Option MxCommand
  stopped : Bool                       -- stopped at a group boundary by a cut that was withdrawn (R438, R439)
  deriving DecidableEq, Repr

/-- A matrix node after reset. -/
def Matrix.reset : Matrix := ⟨[], [], 0, false, 0, [], false, none, false, false, none, none, none, false⟩

/-- What a fault record says of a fault, or of the origin of an error token (R413). -/
structure FaultInfo where
  cause  : Byte
  imp    : Bool
  origin : Nat                         -- 0 edge element, 1 error token at a sink, 2 signal plane, 3 region
  ocause : Byte
  loc    : Nat                         -- plane, site, region, core, die, page, as lane 1 of R101
  gen    : Option Nat
  sink   : Option Nat
  window : Nat
  loop   : List Nat
  chain  : Option (Nat × Nat × Nat)    -- chain, wave, SEQ
  addr   : Nat
  firing : Nat
  lane   : Option Nat
  opnd   : List Lane
  kinds  : List Nat
  link   : Nat
  strays : Nat
  token  : Option Token
  tval   : Word
  deriving DecidableEq, Repr

/-- No fault. -/
def FaultInfo.none : FaultInfo :=
  { cause := 0, imp := false, origin := 0, ocause := 0, loc := 0, gen := .none, sink := .none, window := 0, loop := [],
    chain := .none, addr := 0, firing := 0, lane := .none, opnd := [], kinds := [], link := 0, strays := 0,
    token := .none, tval := 0 }

/-- One plane of a site: its frames, its stages and ports, its element and its router element (R85, R92, R132). -/
structure SitePlane where
  comp   : Option FrameBits
  tileFr : Option FrameBits
  switch : Option FrameBits
  links  : SMap Stage                  -- incoming tracks N0 N1 E0 E1 S0 S1 W0 W1
  ports  : SMap Stage                  -- port stages A B C P Q K
  outs   : SMap OutPort                -- O X Y
  cuffs  : SMap Stage                  -- at the port site: in0-in3, with the stream switch behind them
  stalls : SMap Nat                    -- stall counters of in0-in3 (R233)
  stage  : List (Nat × Token)          -- stage tokens for this site, with the cycle they are due (R249)
  elem   : Half
  rout   : Half
  cell   : Cell
  fibre  : Fibre
  router : Router
  tile   : Tile
  matrix : Matrix
  origins : List FaultInfo             -- the firings that emitted error tokens, newest first (R408, R413)
  deriving DecidableEq, Repr

/-- A plane of a site that nothing is loaded into. -/
def SitePlane.empty : SitePlane :=
  { comp := none, tileFr := none, switch := none, links := [], ports := [], outs := [], cuffs := [], stalls := [],
    stage := [], elem := .reset, rout := .reset, cell := .reset, fibre := .reset, router := .reset, tile := .reset,
    matrix := .reset, origins := [] }

/-- The state of a plane of a region (R87). -/
inductive PlaneState where
  | empty | loading | incomplete | shadow | active
  deriving DecidableEq, Repr

/-- One plane of a region: its state, its owner and the page it holds (R87, R219, R227). -/
structure Plane where
  st    : PlaneState
  owner : Option GraphIx
  page  : Nat
  since : Nat                          -- cycle in which it last left ACTIVE (R236)
  img   : Nat                          -- the image it was loaded from (R445)
  deriving DecidableEq, Repr

/-- An EMPTY plane owned by no graph. -/
def Plane.none : Plane := ⟨.empty, .none, 0, 0, 0⟩

/-- A region (R86, R87, R115, R116, R232). -/
structure Region where
  planes : SMap Plane
  inter  : Bool                        -- interleaved mode
  ctr    : Nat                         -- the context counter
  choice : Option Nat                  -- plane chosen as the next context
  deriving DecidableEq, Repr

/-- A region after reset. -/
def Region.reset : Region := ⟨[], false, 0, .none⟩

/-! ### Graphs -/

/-- The states of a graph and of its instant (R114, R240). -/
inductive GraphState where
  | idle | run | resolve | commit | held | ended
  deriving DecidableEq, Repr

/-- The states of a context (R448). -/
inductive CutState where
  | running | draining | saving | cut | restoring
  deriving DecidableEq, Repr

/-- A page-table entry (R129). -/
structure PageInfo where
  page  : Nat
  inter : Bool
  clon  : Bool
  live  : Nat
  ports : Nat
  deriving DecidableEq, Repr

/-- A stream-table entry, with the plane of its producing page; it leads to the plane that holds the same image (R85, R454,
R483). -/
structure StreamInfo where
  plane : Nat
  opage : Nat
  oport : Nat
  ipage : Nat
  iport : Nat
  deriving DecidableEq, Repr

/-- What a generator still delivers, in issue order: the token, whether its reply has arrived, the chain entry, engine request
or save it waits for (R253, R319, R320, R346), and, where its plane of signed digits has not been fetched, the number of that
plane and its elements by lane (R165, R277). -/
structure Item where
  tok   : Token
  ready : Bool
  wait  : Option Nat
  owed  : Option (Nat × List (Nat × Int))
  deriving DecidableEq, Repr

/-- A token as it leaves or once its reply has come. -/
def Item.of (t : Token) (ready : Bool) (wait : Option Nat := none) : Item := ⟨t, ready, wait, none⟩

/-- What a generator has consumed of a group that is not complete, and what it keeps while a section runs. -/
structure GenPart where
  first : Option Token                 -- the index token of a pair; the scale token of a block
  toks  : List Token                   -- tokens of the group so far
  acc   : List Lane                    -- sums of a bag
  n     : Nat                          -- valid lanes of a bag; place in a row or a block
  seen  : Bool                         -- an index was consumed since the last stop
  deriving DecidableEq, Repr

/-- Nothing consumed. -/
def GenPart.empty : GenPart := ⟨none, [], [], 0, false⟩

/-- What the replay log keeps of a generator as it opens a window (R406): the window, the loop counters, whether its nest is in
progress, the frames it has written, and its copy of the hot-row map. -/
structure Snap where
  win    : Nat
  loop   : List Nat
  on     : Bool
  frames : Nat
  hot    : Option Nat
  deriving DecidableEq, Repr

/-- A logical generator of a graph and the perimeter generator or push engine it is bound to (R141, R229, R253, R257). -/
structure Gen where
  frames : SMap FrameBits              -- its frames by plane: 4 × plane + part (R454)
  plane  : Fin 4                       -- the plane whose frames it runs with
  parts  : SMap FrameBits              -- parts 0-3 of the frames it runs with; an absent part reads 0
  core   : CoreIx
  place  : Nat                         -- perimeter index 0-31; 32 + 2 × slice + engine for a push engine
  inq    : Stage                       -- tokens that have reached it
  scq    : Stage                       -- tokens of its scale stream (R275)
  out    : OutPort
  line   : List Item
  loop   : List Nat                    -- loop counters i0-i5
  on     : Bool                        -- its nest is in progress
  fin    : Bool                        -- it has delivered or consumed D
  halt   : Bool                        -- stopped at a marker of the cut level (R438)
  half   : Half
  part   : GenPart
  frameNo : Nat                        -- frames written since its section started (R321)
  hot    : Option Nat                  -- the copy of the hot-row map in use, once chosen (R318)
  cam    : List Byte                   -- the copy of its camera register (R341)
  win    : Nat                         -- windows it has ended (R402)
  opened : Bool                        -- it has acted in its present window
  snaps  : List Snap                   -- of the windows it has opened (R406)
  xfer   : List (List Byte)            -- runs on their way into a tile stage (R314)
  reqs   : List Token                  -- requests sent to an engine and not yet received (R320)
  origins : List FaultInfo             -- the firings that emitted error tokens, newest first
  deriving DecidableEq, Repr

/-- A generator that nothing configures. -/
def Gen.none : Gen :=
  { frames := [], plane := 0, parts := [], core := 0, place := 0, inq := ⟨[], true, 8⟩, scq := ⟨[], true, 8⟩, out := .empty, line := [],
    loop := [0, 0, 0, 0, 0, 0], on := false, fin := false, halt := false, half := .reset, part := .empty, frameNo := 0, hot := .none, cam := [],
    win := 0, opened := false, snaps := [], xfer := [], reqs := [],
    origins := [] }

/-- An entry of the ordering buffer: its access (R283, R284, R319). -/
structure Entry where
  id   : Nat
  gen  : Nat
  wave : Nat
  seq  : Nat
  pred : Nat
  succ : Nat
  idx  : Option Token                  -- none: performs nothing
  vals : List Token
  deriving DecidableEq, Repr

/-- A chain (R284): current wave, the SEQ and SUCC of its last performed entry, the SEQs performed in the wave, the entries
on their way and held, whether it releases nothing further, and the cycle of its last release. -/
structure Chain where
  cur   : Nat
  last  : Option (Nat × Nat)
  done  : List Nat
  way   : List Entry
  held  : List Entry
  stuck : Bool
  since : Nat
  deriving DecidableEq, Repr

/-- An idle chain. -/
def Chain.idle : Chain := ⟨0, none, [], [], [], false, 0⟩

/-- What a pocket entry does when it drains (R403): bytes, masked bits of bytes, a camera update, a frame for the stamp
unit, an image whose saving a token waits for (R346), bytes performed after every other store of the window, or nothing any more. -/
inductive PocketKind where
  | plain
  | masked (m : List Byte)
  | camera (store : Nat) (cam : List Byte) (cell : Nat × Nat × Nat) (d w : Lane) (x : List Lane)
  | frame (req : Nat) (no : Nat) (width height : Nat)
  | save (id : Nat)
  | release
  | spoiled (last : Bool)              -- an uncorrectable word (R435); whether it was a release
  deriving DecidableEq, Repr

/-- A store held in a pocket (R403). -/
structure PocketEntry where
  gen  : Nat
  win  : Nat
  pas  : List Nat
  data : List Byte
  kind : PocketKind
  deriving DecidableEq, Repr

/-- What an entry of the replay log holds (R406): a token with the position of the element that delivered it, a choice, or bytes
of loop counters, chains or stages, which `Gen.snaps` and `Graph.logs` keep. -/
inductive Logged where
  | token (at_ : Nat) (t : Token)
  | choice (b : Bool)
  | state (bytes : Nat)
  | spoiled (bytes : Nat)              -- an uncorrectable word (R435)
  deriving DecidableEq, Repr

/-- An entry of the replay log, with its window (R406). -/
structure LogEntry where
  win  : Nat
  what : Logged
  deriving DecidableEq, Repr

/-- What a load is for (R236, R238, R449): the image of a new graph, pages of a resident graph, a block, the launch of
a queue's record, a plane of a restored context. -/
inductive LoadKind where
  | graph
  | pages
  | block (b : Nat)
  | launch (q idx : Nat)
  | restore (page : Nat)
  deriving DecidableEq, Repr

/-- A load in progress (R146, R238): the plane written, the image and the address space it is read in, its pages as read
for placement, and the bytes read so far. -/
structure Load where
  plane : Nat
  img   : Nat
  asid  : Byte
  kind  : LoadKind
  pre   : List Byte                    -- the page table as read for placement
  count : Nat                          -- PAGES as read for placement
  bytes : List Byte
  deriving DecidableEq, Repr

/-- Why a graph is HELD (R114, R407, R416): its cause, TVAL, whether it was delivered imprecise, the lowest faulted
window, and the place of the stray token named. -/
structure Held where
  cause : Byte
  tval  : Word
  imp   : Bool
  wl    : Nat
  stray : Nat
  deriving DecidableEq, Repr

/-- The copies of a cloned page (R233): the region of the copy, and the SPLIT before the two copies and the ORDER after them as
router elements of the stream switch (R202). -/
structure Clone where
  page   : Nat
  core   : CoreIx
  region : Fin 16
  plane  : Nat
  bound  : Bool
  split  : SitePlane
  order  : SitePlane
  closed : Bool                        -- the tokens before its marker have left the page; both copies run
  deriving DecidableEq, Repr

/-- The entry queue of a block (R235, R236): records taken and stored so far, and whether its image failed. -/
structure BlockQ where
  head : Nat
  tail : Nat
  bad  : Bool
  deriving DecidableEq, Repr

/-- A site of a plane of a context as it was saved (R447), its frames apart. -/
structure SavedSite where
  page  : Nat
  site  : Nat
  plane : Nat
  x     : SitePlane
  deriving DecidableEq, Repr

/-- A context that has been saved: where its record stands, what kind it is, and what its elements hold beside the record, for
which the record has no place (R443, log entry 46). -/
structure Saved where
  area   : Nat
  size   : Nat
  full   : Bool
  bytes  : List Byte                   -- the record itself, where it stands in a checkpoint (R480)
  sites  : List SavedSite
  gens   : SMap Gen
  deriving DecidableEq, Repr

/-- A resident graph, or the slot of one (R219). -/
structure Graph where
  live   : Bool
  gen    : Nat                         -- GEN of the slot
  freed  : Nat                         -- when the slot was freed, in the order of frees
  st     : GraphState
  asid   : Byte
  prio   : Nat
  queue  : Option Nat                  -- the queue that launched it
  compl  : Nat                         -- its completion counter
  img    : Nat
  starts : SMap Nat                    -- the plane that each page starts on (R227, R240)
  pages  : List (Nat × CoreIx × Fin 16) -- placement: page, core, region, pages ascending
  table  : List PageInfo
  streams : List StreamInfo
  inv    : Nat
  win    : Nat
  cut    : Nat
  dinit  : List Lane
  dreg   : SMap Lane                   -- delay registers, latched values
  tree   : List RecordBits
  walk   : SMap (Nat × Bool × Bool)    -- count, current and done of each record (R446)
  latch  : BitVec 64                   -- emit latches
  arms   : BitVec 64                   -- pages armed by ARMSEC
  armed  : BitVec 64                   -- of them, those sampled in the instant under way (R243)
  sigs   : BitVec 64                   -- signals present in the last committed instant
  running : List Nat                   -- pages whose section runs
  last1  : Bool                        -- the root has completed; one more instant runs (R124)
  asleep : Bool                        -- the next instant waits for a SIGEMIT or an ARMSEC (R123)
  tocommit : Option (BitVec 64)        -- signals resolved in an instant that is not committed yet (R114)
  gens   : SMap Gen
  chains : SMap Chain
  nextId : Nat                         -- id of the next chain entry or engine request
  cams   : SMap (List Byte)            -- camera registers; an unlisted one is all zero
  stores : List (List Byte)            -- store descriptors
  pocket : List PocketEntry            -- stores held in the pockets, in the order they entered
  dead   : List Nat                    -- windows that are non-replayable
  logged : List LogEntry               -- the replay log, oldest first
  logs   : List (Nat × SMap Chain × List (Nat × Tile)) -- chains and stages as a window opened (R406)
  act    : Nat                         -- activity counter
  swept  : Nat                         -- the counter as the last sweep read it
  clean  : Nat                         -- consecutive clean sweeps
  bare   : Nat                         -- of them, those that found no token
  closing : Bool                       -- the windows of this instant or cut have ended, and its pockets drain
  raised : List FaultInfo              -- faults raised and not yet noted
  noted  : List FaultInfo
  floor  : Nat                         -- lowest window that had not ended as the first of them was noted (R407)
  held   : Option Held
  ended  : Option Word                 -- what GWAIT for the graph's end returns
  loads  : List Load
  loaded : Option Word                 -- what GWAIT for a load's end returns
  ctx    : CutState
  cutAt  : Nat                         -- cycle of the cut request
  cuts   : Nat
  frozen : Bool                        -- nothing of it acts: a forced cut, or it waits for its regions (R230, R442)
  slice  : Nat                         -- cycle in which the present time slice began
  waits  : Nat                         -- cycle since when the context waits for regions (R231)
  saved  : Option Saved
  clone  : List Clone
  nblk   : Nat
  blktab : Nat
  blocks : SMap BlockQ
  deriving DecidableEq, Repr

/-- A free slot. -/
def Graph.free : Graph :=
  { live := false, gen := 0, freed := 0, st := .idle, asid := 0, prio := 4, queue := none, compl := 0, img := 0,
    starts := [], pages := [], table := [], streams := [], inv := 0, win := 0, cut := 0, dinit := [], dreg := [],
    tree := [], walk := [], latch := 0, arms := 0, armed := 0, sigs := 0, running := [], last1 := false, asleep := false,
    tocommit := none, gens := [], chains := [], nextId := 0, cams := [], stores := [], pocket := [], dead := [], logged := [],
    logs := [], act := 0, swept := 0, clean := 0, bare := 0, closing := false, raised := [], noted := [], floor := 0, held := none, ended := none,
    loads := [], loaded := none, ctx := .running, cutAt := 0, cuts := 0, frozen := false, slice := 0, waits := 0,
    saved := none, clone := [], nblk := 0, blktab := 0, blocks := [] }

/-- A member's request at a collective engine (R371-R374): the generator that waits, its item, the die, the address
space, the descriptor and the member table. -/
structure CollReq where
  src   : GenAt
  item  : Nat
  die   : Fin 4
  asid  : Byte
  desc  : List Byte
  memb  : List Byte
  since : Nat
  deriving DecidableEq, Repr

/-- The task distributor (R222, R224): the TAIL it has seen of each queue, and since when each head is eligible, plus 1. -/
structure Distributor where
  seen  : SMap Nat
  since : SMap Nat
  frees : Nat                          -- slots freed so far, over the module
  deriving DecidableEq, Repr

/-! ### The register block, the mailboxes and the service units -/

/-- One mailbox of R472: request and response slots of 64 bytes, the second response, and BUSY. -/
structure MailboxState where
  req  : List Byte
  rsp  : List Byte
  rsp2 : Option (List Byte)
  busy : Bool
  deriving DecidableEq, Repr

/-- An empty mailbox (R459: MBRSP reads 0 at reset). -/
def MailboxState.reset : MailboxState := ⟨List.replicate 64 0, List.replicate 64 0, none, false⟩

/-- The register block's own registers (R459). ASTAB, BARTAB and CTXTAB stand in the machine's state; CORESTAT, LINKSTAT
and SERIAL are read from their sources. -/
structure HostBlock where
  modnum  : Word
  qtable  : Word
  relstat : Word
  relReq  : Option Word                 -- the RELEASE write the management complex is acting on (R460)
  repl    : Bool                        -- DEVSTAT[0] (R479)
  events  : List (Nat × Nat)            -- CXL event records logged: kind and unit (R465, R477, R479, R481)
  deriving DecidableEq, Repr

/-- The peer links (R463). -/
structure Links where
  up       : BitVec 8
  spared   : BitVec 8
  peers    : List Nat                   -- numbers of the other modules in the domain
  replays  : Nat                        -- flits replayed (R477)
  deriving DecidableEq, Repr

/-- What a checkpoint holds of the module besides its own bytes: device memory and all architectural state (R480). -/
structure Snapshot where
  cores   : SMap Core
  mem     : SMap Byte
  astab   : Word
  bartab  : Word
  ctxtab  : Word
  qtable  : Word
  modnum  : Word
  sites   : SMap SitePlane
  tiles   : SMap (SMap Byte)
  regions : SMap Region
  graphs  : SMap Graph
  dist    : Distributor
  deriving DecidableEq, Repr

/-- A checkpoint or a copy out of the safe tier that is under way: who waits for its response, and whether the module stops
after the checkpoint (R480, R481). -/
inductive Service where
  | idle
  | saving (m : Option Mailbox) (stop : Bool)
  | reading (m : Mailbox)
  deriving DecidableEq, Repr

/-- Dvorrok and the stamp unit (R470-R481). -/
structure Dvorrok where
  locked   : Bool
  mkey     : Word
  time     : Word
  timeFrac : Nat                        -- cycles since TIME last advanced
  ranges   : SMap (Nat × Nat)           -- designated range of each index: base and length
  ringBase : Nat
  ringLog  : Nat
  ringCtl  : Nat
  service  : Service
  safe     : Option Snapshot            -- the image in the safe tier
  order    : List Mailbox               -- requests waiting for Dvorrok, in arrival order
  script   : List (List Byte)           -- requests the management firmware still submits
  host     : MailboxState
  mgmt     : MailboxState
  stopped  : Bool                       -- the module has stopped after a thermal shutdown (R481)
  throttle : List (Fin 4)               -- dies whose matrix nodes run at half rate (R481)
  deriving DecidableEq, Repr

/-- Repair and soft-error state (R477-R479). -/
structure Repair where
  marks     : SMap Byte                 -- uncorrectable words by 8-byte word of storage: the cause a consumer meets
  badFrames : List (Elt × Fin 3 × Bool) -- frames hit: element, layout, uncorrectable
  badTiles  : List (Elt × Nat)          -- uncorrectable 8-byte words of tiles, by site (any plane) and word
  regions   : List (Fin 256 × Fin 16)   -- regions retired
  spareUsed : List (Fin 256)            -- cores whose spare region is in use
  rows      : SMap Nat                  -- DRAM rows spared, by channel
  channels  : List (Fin 256)            -- channels running on their spare
  offline   : List (Fin 256)            -- channels offline
  lanes     : SMap Nat                  -- link lanes spared, by port
  slices    : List (Fin 256 × Fin 8)    -- slices disabled
  corrected : Nat                       -- errors corrected and counted
  deriving DecidableEq, Repr

/-! ### Atomics across the networks (R322) -/

/-- What the networks do with one send of an atomic: deliver it and its reply, or lose one of the two. -/
inductive Loss where
  | no | request | reply
  deriving DecidableEq, Repr

/-- An atomic that its source has sent and that is unanswered (R322, R324). -/
structure Atomic where
  src    : Nat
  id     : BitVec 16
  target : Nat
  addr   : Word
  pas    : List Nat
  op     : BitVec 3
  wide   : Bool
  value  : Word
  expect : Word
  rd     : Reg
  sends  : Nat
  since  : Nat
  deriving DecidableEq, Repr

/-- An entry of a target's reply cache (R322). -/
structure Reply where
  target : Nat
  src    : Nat
  id     : BitVec 16
  old    : Word
  deriving DecidableEq, Repr

/-- A message on its way to another module (R325, R463). -/
structure Outgoing where
  module : Nat
  core   : Nat
  ep     : BitVec 6
  msg    : BitVec 63
  deriving DecidableEq, Repr

/-! ### The machine -/

/-- The state of the module. -/
structure State where
  cur     : CoreIx                     -- the core whose turn it is
  agenda  : List Turn                  -- what is still to happen in this cycle
  inputs  : List Instr                 -- what the host and the environment do, in order
  cycle   : Nat                        -- cycles since reset
  choices : Nat                        -- free values taken so far
  cores   : SMap Core
  mem     : SMap Byte                  -- a list of Host.Cell by storage key; an unlisted byte reads 0
  astab   : Word
  bartab  : Word
  ctxtab  : Word
  block   : HostBlock
  links   : Links
  dv      : Dvorrok
  repair  : Repair
  sites   : SMap SitePlane             -- by core, region, site and plane
  tiles   : SMap (SMap Byte)           -- bytes of each memory tile, by core, region and site
  regions : SMap Region                -- by core and region
  graphs  : SMap Graph                 -- by die and residency slot
  dist    : Distributor
  colls   : List CollReq               -- requests that the collective engines hold
  micro   : SMap (List TlbEntry)       -- micro-TLB of each perimeter generator and push engine, by core and place (R264)
  tcs     : SMap (List TlbEntry)       -- translation cache of each slice, by core and slice (R264)
  losses  : List Loss                  -- what the networks do with the next sends; none listed, none lost
  atoms   : List Atomic
  replies : List Reply                 -- newest first
  sent    : List Outgoing              -- messages that left the module
  deriving DecidableEq, Repr

/-- The state after reset (R25, R459, R473; MKEY before the boot of COLD_RESET, see log entry 4). -/
def State.reset : State :=
  { cur := 0, agenda := [], inputs := [], cycle := 0, choices := 0, cores := [], mem := [],
    astab := 0, bartab := 0, ctxtab := 0,
    block := { modnum := 0, qtable := 0, relstat := 0, relReq := none, repl := false, events := [] },
    links := { up := 0, spared := 0, peers := [], replays := 0 },
    dv := { locked := false, mkey := 0, time := 0, timeFrac := 0, ranges := [], ringBase := 0, ringLog := 0,
            ringCtl := 0, service := .idle, safe := none, order := [], script := [], host := .reset, mgmt := .reset,
            stopped := false, throttle := [] },
    repair := { marks := [], badFrames := [], badTiles := [], regions := [], spareUsed := [], rows := [],
                channels := [], offline := [], lanes := [], slices := [], corrected := 0 },
    sites := [], tiles := [], regions := [], graphs := [],
    dist := { seen := [], since := [], frees := 0 }, colls := [], micro := [], tcs := [], losses := [], atoms := [], replies := [], sent := [] }

end Sys2Proof.Machine
end

