-- ==== Sys2Proof/Machine/Flags.lean ====
section
/-! DEFINITION. Bit fields of words, the fields of STATUS (R17), what trap entry and TRET do to them (R23, R421), the
comparisons of the branches (R69), and the status word of R220. -/

namespace Sys2Proof.Machine

/-- Bits [lo+n-1 : lo] of a word as a number (R1). -/
def field (v : Word) (lo n : Nat) : Nat := v.toNat / 2 ^ lo % 2 ^ n

/-- A bit as a number. -/
def b2n (b : Bool) : Nat := if b then 1 else 0

/-- STATUS.IE (R17). -/
def Core.ie (k : Core) : Bool := k.status.getLsbD 0
/-- STATUS.PIE (R17). -/
def Core.pie (k : Core) : Bool := k.status.getLsbD 1
/-- STATUS.SUP (R17). -/
def Core.sup (k : Core) : Bool := k.status.getLsbD 2
/-- STATUS.PSUP (R17). -/
def Core.psup (k : Core) : Bool := k.status.getLsbD 3
/-- STATUS.NEST (R17). -/
def Core.nest (k : Core) : Bool := k.status.getLsbD 4

/-- A status word from its five fields (R17). -/
def mkStatus (nest psup sup pie ie : Bool) : Word :=
  BitVec.ofNat 64 (16 * b2n nest + 8 * b2n psup + 4 * b2n sup + 2 * b2n pie + b2n ie)

/-- STATUS after trap entry (R23). -/
def Core.statusTrap (k : Core) : Word := mkStatus true k.sup true k.ie false

/-- STATUS after TRET (R421). -/
def Core.statusRet (k : Core) : Word := mkStatus false k.psup k.psup k.pie k.pie

/-- An address with bits [1:0] cleared (R11). -/
def align4 (v : Word) : Word := v &&& ~~~3

/-- TCAUSE of a trap (R23). -/
def mkTcause (imp : Bool) (cause : Byte) : Word := BitVec.ofNat 64 (256 * b2n imp + cause.toNat)

/-- The conditions of the six branches, by the low bits of their major opcode (R69). -/
inductive Cond where
  | eq | ne | lt | ge | ltu | geu
  deriving DecidableEq, Repr

/-- Whether a branch condition holds (R69). -/
def Cond.holds (c : Cond) (a b : Word) : Bool :=
  match c with
  | .eq => a = b
  | .ne => a ≠ b
  | .lt => a.slt b
  | .ge => !a.slt b
  | .ltu => a.ult b
  | .geu => !a.ult b

/-- The status word with bit 63 set, cause c and value v (R220). -/
def statusWord (c : Byte) (v : Nat) : Word :=
  BitVec.ofNat 64 (2 ^ 63 + c.toNat * 2 ^ 48 + v % 2 ^ 48)

end Sys2Proof.Machine
end

