-- ==== Sys2Proof/Machine/Ops.lean ====
section
/-! DEFINITION. The named operations over cores, registers, storage and translation, taking a trap and returning from
one (01 R9-R25; 12 R257-R266; 23 R415; 28 R457-R464). -/

namespace Sys2Proof.Machine

/-- The answer of every meaning. -/
abbrev Answer := Host.Outcome State Fault Refusal

/-! ### Cores and registers -/

/-- A core of the module. -/
def State.core (s : State) (c : CoreIx) : Core := s.cores.get Core.reset c.val
/-- The module with one core replaced. -/
def State.setCore (s : State) (c : CoreIx) (k : Core) : State := { s with cores := s.cores.set Core.reset c.val k }
/-- The core whose turn it is. -/
def State.me (s : State) : Core := s.core s.cur
/-- The module with the acting core replaced. -/
def State.setMe (s : State) (k : Core) : State := s.setCore s.cur k
/-- One core changed by f. -/
def State.updCore (s : State) (c : CoreIx) (f : Core → Core) : State := s.setCore c (f (s.core c))

/-- xr: the value of a register; x0 reads as zero (R9, R28). -/
def Core.reg (k : Core) (r : Reg) : Word := if r = 0 then 0 else k.x.get 0 r.val
/-- xw: a write to x0 is discarded (R9, R28). -/
def Core.setReg (k : Core) (r : Reg) (v : Word) : Core :=
  if r = 0 then k else { k with x := k.x.set 0 r.val v, spoiled := k.spoiled.filter (· ≠ r) }
/-- A core at a new pc. -/
def Core.setPc (k : Core) (v : Word) : Core := { k with pc := v }

/-- A register of the acting core. -/
def State.reg (s : State) (r : Reg) : Word := s.me.reg r

/-- The instruction that writes v to xd and goes on at pc + 4 (R18). -/
def State.writeNext (s : State) (d : Reg) (v : Word) : Answer :=
  .next (s.setMe ((s.me.setReg d v).setPc (s.me.pc + 4)))

/-- The instruction that only goes on at pc + 4. -/
def State.skip (s : State) : State := s.setMe (s.me.setPc (s.me.pc + 4))

/-- The next free value, below n (log entry 2), and the state that has taken it. -/
def State.choose (s : State) (n : Nat) : Nat × State :=
  (Config.freeValue s.choices % n, { s with choices := s.choices + 1 })

/-! ### Traps (R23, R415, R420, R421) -/

/-- The control core that receives what is addressed to a stopped core (R415). -/
def receiver (c : CoreIx) : CoreIx :=
  if c.val % 64 = 0 then Fin.ofNat 256 ((c.val / 64 + 1) % 4 * 64) else Fin.ofNat 256 (c.val / 64 * 64)

/-- The core that a cause or message for core c goes to: c, or its receiver while it is stopped, and so on (R415). -/
def State.addressee (s : State) : Nat → CoreIx → CoreIx
  | 0, c => c
  | n + 1, c => if (s.core c).run = .stopped then s.addressee n (receiver c) else c

/-- A cause queued for delivery at core c (R415). -/
def State.post (s : State) (c : CoreIx) (p : Pending) : State :=
  s.updCore (s.addressee 5 c) fun k => { k with pending := k.pending ++ [p] }

/-- A cause without a fault record. -/
def plainCause (cause : Byte) (imp : Bool) (tval : Word) : Pending := ⟨cause, imp, tval, []⟩

/-- The pc that a 64-bit address gives: bits(52) of it, a multiple of 4 (R9, R10, R26). -/
def pcOf (v : Word) : Word := BitVec.ofNat 64 (field v 2 50 * 4)

/-- Trap entry (R23): every field at once. The target is TVEC, or a handler's address for a dispatch (R419). -/
def Core.enter (k : Core) (epc : Word) (cause : Byte) (imp : Bool) (tval target : Word) : Core :=
  { k with epc := align4 epc, tcause := mkTcause imp cause, tval := tval, status := k.statusTrap, pc := pcOf target }

/-- Core c stops on a double trap: 0xA0 goes to its receiver, and so does what was undelivered (R23, R415). -/
def State.stopCore (s : State) (c : CoreIx) : State :=
  let old := (s.core c).pending
  let s1 := s.updCore c fun k => { k with run := .stopped, pending := [], wait := .none }
  old.foldl (fun t p => t.post c p) (s1.post c (plainCause 0xA0 true (BitVec.ofNat 64 c.val)))

/-- A trap raised at core c: trap entry, or the stop of a double trap (R23). -/
def State.raiseAt (s : State) (c : CoreIx) (epc : Word) (cause : Byte) (tval : Word) : State :=
  if (s.core c).nest then s.stopCore c
  else s.setCore c ((s.core c).enter epc cause false tval (s.core c).tvec)

/-- The acting instruction traps: it has no effect but the trap entry (R19). -/
def State.trap (s : State) (cause : Byte) (tval : Word) : Answer :=
  .next (s.raiseAt s.cur s.me.pc cause tval)

/-- Return from a trap (R421). -/
def Core.ret (k : Core) : Core := { k with status := k.statusRet, pc := pcOf k.epc }

/-- The handler entry of an endpoint (R417). -/
def Core.handler (k : Core) (e : BitVec 6) : Word := k.handlers.get 0 e.toNat
/-- BIND of an endpoint's entry (R417). -/
def Core.bound (k : Core) (e : BitVec 6) : Bool := (k.handler e).getLsbD 1
/-- EN of an endpoint's entry (R417). -/
def Core.enabled (k : Core) (e : BitVec 6) : Bool := (k.handler e).getLsbD 0
/-- The endpoint whose dispatch is next: the first in order of arrival whose entry is bound and enabled (R415, R417). -/
def Core.nextDispatch (k : Core) : Option (BitVec 6) := k.dispatch.find? fun e => k.bound e && k.enabled e

/-- Whether a core has a delivery of R415 pending. -/
def Core.hasDelivery (k : Core) : Bool := !k.pending.isEmpty || k.nextDispatch.isSome

/-- Whether a core takes a delivery now: between instructions, IE = 1, NEST = 0 (R415). -/
def Core.takesDelivery (k : Core) : Bool := k.ie && !k.nest && k.hasDelivery

/-! ### The physical address map (R457) and storage (R259) -/

/-- Bytes of one channel (R259). -/
abbrev chanBytes : Nat := 0x60000000
/-- Bytes of device memory: four dies of 64 channels. -/
abbrev devBytes : Nat := 0x6000000000
/-- The base of the core-local window. -/
abbrev localBase : Nat := 0x8000000000
/-- The base of the host window. -/
abbrev hostBase : Nat := 0x4000000000000
/-- The base of the domain window. -/
abbrev domBase : Nat := 0x8000000000000
/-- Bytes of the domain window per module. -/
abbrev domStep : Nat := 0x8000000000
/-- The base of the register block. -/
abbrev blockBase : Nat := 0xFFFFFFF000000

/-- The windows of the physical address map (R457). -/
inductive Window where
  | interleaved | coreLocal | host | domain (m : Nat) | block | none
  deriving DecidableEq, Repr

/-- The window of a physical address (R457). -/
def window (pa : Nat) : Window :=
  if pa < devBytes then .interleaved
  else if localBase ≤ pa ∧ pa < localBase + devBytes then .coreLocal
  else if hostBase ≤ pa ∧ pa < domBase then .host
  else if domBase ≤ pa ∧ pa < domBase + 64 * domStep then
    if (pa - domBase) % domStep < devBytes then .domain ((pa - domBase) / domStep) else .none
  else if blockBase ≤ pa ∧ pa < 2 ^ 52 then .block
  else .none

/-- The storage key of the byte that a die address of the interleaved window names (R259): die, channel and offset in the
channel, in the order of the core-local window. -/
def keyOfInterleaved (a : Nat) : Nat :=
  let o := a % (64 * chanBytes)
  a / (64 * chanBytes) * (64 * chanBytes) + o / 4096 % 64 * chanBytes + (o / 2 ^ 18 * 4096 + o % 4096)

/-- The interleaved address of a storage key: the inverse (R259). -/
def interleavedOfKey (k : Nat) : Nat :=
  let o := k % (64 * chanBytes)
  let off := o % chanBytes
  k / (64 * chanBytes) * (64 * chanBytes) + (off / 4096 * 2 ^ 18 + o / chanBytes * 4096 + off % 4096)

/-- This module's number in the domain (R459 MODNUM). -/
def State.modnum (s : State) : Nat := field s.block.modnum 0 6
/-- MODNUM.DEN (R459). -/
def State.den (s : State) : Bool := s.block.modnum.getLsbD 6

/-- The storage key of a physical address. Both device windows name one storage (R259); the own module's domain window
names it too (R458). A host byte and a byte of another module have keys of their own. -/
def State.key (s : State) (pa : Nat) : Nat :=
  match window pa with
  | .interleaved => keyOfInterleaved pa
  | .coreLocal => pa - localBase
  | .domain m => if m = s.modnum then keyOfInterleaved ((pa - domBase) % domStep) else pa
  | _ => pa

/-- The channel of a storage key of the device (R259). -/
def keyChannel (k : Nat) : CoreIx := Fin.ofNat 256 (k / chanBytes)

/-- The port that traffic to module m leaves by: m mod 8 while up, else the next up (R463). -/
def portFor (up : BitVec 8) (m : Nat) : Option Nat :=
  ((List.range 8).map fun i => (m + i) % 8).find? fun p => up.getLsbD p

/-- Whether the domain carries an access to module m: DEN = 1, m is a peer or the own module, whose accesses take the
domain path too, and a port is up (R458, R464, log entry 16). -/
def State.domainUp (s : State) (m : Nat) : Bool :=
  s.den && (m = s.modnum || s.links.peers.contains m) && (portFor s.links.up m).isSome

/-- The cause that keeps one byte from being delivered to its consumer: 0xB3, or the mark of an uncorrectable word, or
0xB1 of a channel offline (R464, R477, R479). -/
def State.undeliverable (s : State) (pa : Nat) : Option Byte :=
  let k := s.key pa
  let bad : Option Byte :=
    if k < devBytes && s.repair.offline.contains (keyChannel k) then some 0xB1
    else match s.repair.marks.get 0 (k / 8) with
      | 0 => none
      | c => some c
  match window pa with
  | .domain m => if s.domainUp m then bad else some 0xB3
  | .block => none
  | _ => bad

/-- The first cause among several bytes. -/
def State.undeliverables (s : State) : List Nat → Option Byte
  | [] => none
  | p :: ps => match s.undeliverable p with
    | some c => some c
    | none => s.undeliverables ps

/-- The cause that keeps a store from being performed: 0xB3 of the domain, or 0xB1 of a channel offline (R464, R479). A
store does not consume the word it writes over, so a mark is none (log entry 6). -/
def State.unstorable (s : State) : List Nat → Option Byte
  | [] => none
  | p :: ps =>
    let k := s.key p
    let off := k < devBytes && s.repair.offline.contains (keyChannel k)
    match window p with
    | .domain m => if !s.domainUp m then some 0xB3 else if off then some 0xB1 else s.unstorable ps
    | _ => if off then some 0xB1 else s.unstorable ps

/-- The byte of storage at a key: an unlisted byte reads 0 (log entry 5). -/
def State.byteAt (s : State) (k : Nat) : Byte := s.mem.get 0 k

/-- n consecutive addresses. -/
def addrs (a n : Nat) : List Nat := (List.range n).map (a + ·)

/-- The bytes of storage at physical addresses. -/
def State.bytesAt (s : State) (pas : List Nat) : List Byte := pas.map fun p => s.byteAt (s.key p)

/-- n bytes of storage from a physical address upward. -/
def State.physBytes (s : State) (pa n : Nat) : List Byte := s.bytesAt (addrs pa n)
/-- n bytes from a physical address as a number (R11). -/
def State.physNat (s : State) (pa n : Nat) : Nat := leNat (s.physBytes pa n)

/-- One byte stored at a key. A whole 8-byte word written over loses its mark, see `storeBytes`. -/
def State.putByte (s : State) (k : Nat) (b : Byte) : State := { s with mem := s.mem.set 0 k b }

/-- Bytes stored at keys. -/
def State.putBytes (s : State) : List (Nat × Byte) → State
  | [] => s
  | (k, b) :: r => (s.putByte k b).putBytes r

/-- The 8-byte words that a list of keys covers whole: they are written anew, so a mark on them goes (log entry 6). -/
def wholeWords (ks : List Nat) : List Nat :=
  ks.filterMap fun k => if k % 8 = 0 && (addrs k 8).all ks.contains then some (k / 8) else none

/-- The stores that storage takes: bytes of a channel offline are discarded (R479), and the register block is no storage
(R459). -/
def State.storable (s : State) (pas : List Nat) (bs : List Byte) : List (Nat × Byte) :=
  ((pas.map s.key).zip bs).filter fun kb =>
    !(kb.1 < devBytes && s.repair.offline.contains (keyChannel kb.1)) && !decide (blockBase ≤ kb.1)

/-- Bytes stored at physical addresses. -/
def State.storeBytes (s : State) (pas : List Nat) (bs : List Byte) : State :=
  let s1 := s.putBytes (s.storable pas bs)
  { s1 with repair := { s1.repair with
      marks := (wholeWords (pas.map s.key)).foldl (fun m w => m.set 0 w 0) s1.repair.marks } }

/-- n bytes of a number stored at a physical address upward. -/
def State.storeNat (s : State) (pa n v : Nat) : State := s.storeBytes (addrs pa n) (leBytes n v)

/-! ### Translation (R260-R266) -/

/-- The index bits of each level: HI and LO of R263. -/
def levelLo : Nat → Nat
  | 0 => 39 | 1 => 30 | 2 => 21 | _ => 16
/-- Entries of a table of each level, as index width (R262). -/
def levelBits : Nat → Nat
  | 0 => 13 | 1 => 9 | 2 => 9 | _ => 5

/-- A leaf maps bytes of one window only (R458). -/
def rangeMapped (base size : Nat) : Bool :=
  window base ≠ .none && window base = window (base + size - 1)

/-- pte_ok of R263 with R458. -/
def pteOk (p lvl : Nat) : Bool :=
  let t := bits p 1 1
  let lo := levelLo lvl
  bits p 52 12 = 0 && bits p 5 3 = 0 && !(lvl = 0 && t = 0) && !(lvl = 3 && t = 1) &&
  !(t = 1 && lvl ≤ 1 && bits p 8 4 ≠ 0) &&
  (t = 1 || (bits p 8 (lo - 8) = 0 && rangeMapped (bits p lo (52 - lo) * 2 ^ lo) (2 ^ lo)))

/-- How a walk ends. -/
inductive Walk where
  | leaf (lvl : Nat) (p : Nat)
  | fault (cause : Byte)
  deriving DecidableEq, Repr

/-- One entry read by the walker: the word, or the cause that keeps it from being read. No storage exists where no window
lies, so an entry there is a malformed one: `absent` is the cause that says so of it (R263, R457, log entry 57). -/
def State.walkWord (s : State) (pa : Nat) (absent : Byte) (k : Nat → Walk) : Walk :=
  match window pa with
  | .none => .fault absent
  | _ => match s.undeliverables (addrs pa 8) with
    | some c => .fault c
    | none => k (s.physNat pa 8)

/-- The levels of the walk from one level's table on (R263). -/
def State.walkLevels (s : State) (va : Nat) : Nat → Nat → Nat → Walk
  | 0, _, _ => .fault 0x25
  | fuel + 1, lvl, base =>
    s.walkWord (base + 8 * bits va (levelLo lvl) (levelBits lvl)) 0x25 fun p =>
      if p % 2 = 0 then .fault 0x21
      else if !pteOk p lvl then .fault 0x25
      else if bits p 1 1 = 0 then .leaf lvl p
      else s.walkLevels va fuel (lvl + 1) (bits p 8 44 * 256)

/-- The walk of an address in an address space (R263). -/
def State.walk (s : State) (asid : Byte) (va : Nat) : Walk :=
  s.walkWord (field s.astab 11 41 * 2048 + 8 * asid.toNat) 0x27 fun e =>
    if e % 2 = 0 ∨ bits e 52 12 ≠ 0 ∨ bits e 1 15 ≠ 0 then .fault 0x27
    else s.walkLevels va 4 0 (bits e 16 36 * 65536)

/-- Whether a cached translation serves an address (R264). -/
def TlbEntry.hits (t : TlbEntry) (asid : Byte) (va : Nat) : Bool := t.asid = asid && t.page = va / 2 ^ t.lo
/-- The physical address a translation gives. -/
def TlbEntry.pa (t : TlbEntry) (va : Nat) : Nat := bits t.leaf.toNat t.lo (52 - t.lo) * 2 ^ t.lo + va % 2 ^ t.lo

/-- perm_check for the control core: the first cause that applies (R263). -/
def permCore (leaf : Word) (kind : Access) (user : Bool) : Option Byte :=
  if user && !leaf.getLsbD 4 then some 0x24
  else match kind with
    | .fetch => if leaf.getLsbD 3 then none else some 0x23
    | .store => if leaf.getLsbD 2 then none else some 0x22
    | .load => none

/-- perm_check for fabric elements (R263). -/
def permFabric (leaf : Word) (kind : Access) : Option Byte :=
  if kind = .store && !leaf.getLsbD 2 then some 0x22 else none

/-- What a translation answers. -/
inductive Xlat where
  | ok (pa : Nat) (s : State)
  | fault (cause : Byte)
  deriving DecidableEq, Repr

/-- A walk's leaf as a cached translation. -/
def mkTlb (asid : Byte) (va lvl p : Nat) : TlbEntry := ⟨asid, va / 2 ^ levelLo lvl, levelLo lvl, BitVec.ofNat 64 p⟩

/-- A core's TLB for an access (R264). -/
def Core.tlb (k : Core) (kind : Access) : List TlbEntry := if kind = .fetch then k.itlb else k.dtlb
/-- A translation enters a TLB of 32 entries for fetch, 64 for data; the oldest leaves (R264, log entry 7). -/
def Core.cache (k : Core) (kind : Access) (t : TlbEntry) : Core :=
  if kind = .fetch then { k with itlb := (t :: k.itlb).take 32 } else { k with dtlb := (t :: k.dtlb).take 64 }

/-- Translation for the acting core: by its TLB, else by a walk whose result the TLB then holds (R263-R265). -/
def State.translate (s : State) (va : Nat) (kind : Access) : Xlat :=
  let k := s.me
  match (k.tlb kind).find? fun t => t.hits k.asid va with
  | some t => match permCore t.leaf kind (!k.sup) with
    | some c => .fault c
    | none => .ok (t.pa va) s
  | none => match s.walk k.asid va with
    | .fault c => .fault c
    | .leaf lvl p =>
      let t := mkTlb k.asid va lvl p
      match permCore t.leaf kind (!k.sup) with
      | some c => .fault c
      | none => .ok (t.pa va) (s.setMe (k.cache kind t))

/-- What the translation of a whole access answers: the physical address of every byte. -/
inductive Span where
  | ok (pas : List Nat) (s : State)
  | trap (cause : Byte) (tval : Word)
  deriving DecidableEq, Repr

/-- R22: the last byte of an access of n bytes lies in the virtual range. -/
def inRange (a : Word) (n : Nat) : Bool := a.toNat + n ≤ 2 ^ 52

/-- Both pages of an access translated before any byte moves, the lower page first (R22, R263). -/
def State.span (s : State) (a : Word) (n : Nat) (kind : Access) : Span :=
  if !inRange a n then .trap 0x20 a
  else
    let va := a.toNat
    match s.translate va kind with
    | .fault c => .trap c a
    | .ok pa s1 =>
      let next := (va / 65536 + 1) * 65536
      if va + n ≤ next then .ok (addrs pa n) s1
      else match s1.translate next kind with
        | .fault c => .trap c (BitVec.ofNat 64 next)
        | .ok pb s2 => .ok (addrs pa (next - va) ++ addrs pb (va + n - next)) s2

/-- An access to the register block is one to its first byte's window (R459). -/
def isBlock : List Nat → Bool
  | p :: _ => window p = .block
  | [] => false

/-- Whether a cached translation matches the value v of TINV (R266). -/
def TlbEntry.matchesTinv (t : TlbEntry) (v : Word) : Bool :=
  (v.getLsbD 8 || t.asid.toNat = field v 0 8) &&
  (v.getLsbD 9 || t.page = field v 16 36 * 65536 / 2 ^ t.lo)

/-! ### The device-wide registers (R260, R331, R436) -/

/-- The kept bits of ASTAB (R260). -/
def keepAstab (v : Word) : Word := BitVec.ofNat 64 (field v 11 41 * 2 ^ 11)
/-- The kept bits of BARTAB (R331). -/
def keepBartab (v : Word) : Word := BitVec.ofNat 64 (field v 24 28 * 2 ^ 24 + field v 0 1)
/-- The kept bits of CTXTAB (R436). -/
def keepCtxtab (v : Word) : Word := BitVec.ofNat 64 (field v 12 40 * 2 ^ 12)

/-- ASTAB written; every walker uses it at once (R260, log entry 9). -/
def State.writeAstab (s : State) (v : Word) : State := { s with astab := keepAstab v }
/-- BARTAB written (R331). -/
def State.writeBartab (s : State) (v : Word) : State := { s with bartab := keepBartab v }
/-- CTXTAB written (R436). -/
def State.writeCtxtab (s : State) (v : Word) : State := { s with ctxtab := keepCtxtab v }

/-! ### Refused stores (R332, R474) -/

/-- The address in the window of `base` that names the storage key k, if one does. -/
def State.nameIn (s : State) (base k : Nat) : Option Nat :=
  match window base with
  | .interleaved => if k < devBytes then some (interleavedOfKey k) else none
  | .coreLocal => if k < devBytes then some (k + localBase) else none
  | .host => if window k = .host then some k else none
  | .domain m =>
    if m = s.modnum then (if k < devBytes then some (domBase + m * domStep + interleavedOfKey k) else none)
    else if window k = .domain m then some k else none
  | _ => none

/-- BARTAB.EN (R331). -/
def State.bartabEn (s : State) : Bool := s.bartab.getLsbD 0
/-- The base of the barrier table (R331). -/
def State.bartabBase (s : State) : Nat := field s.bartab 24 28 * 2 ^ 24

/-- Whether the 64-byte line of a storage key holds an ACTIVE entry of the barrier table (R331, R332). -/
def State.activeLine (s : State) (k : Nat) : Bool :=
  s.bartabEn && match s.nameIn s.bartabBase k with
    | none => false
    | some a =>
      decide (s.bartabBase ≤ a ∧ a < s.bartabBase + 2 ^ 24) &&
      ((List.range 4).any fun j => s.physNat (a / 64 * 64 + 16 * j + 6) 2 % 4 = 1)

/-- Whether a storage key lies in a designated range after LOCK (R474). -/
def State.stamped (s : State) (k : Nat) : Bool :=
  s.dv.locked && s.dv.ranges.any fun r => decide (r.2.1 ≤ k ∧ k < r.2.1 + r.2.2)

/-- The cause that refuses a store to any of these addresses: 0x2C, then 0xB4 (R59, R332, R474). -/
def State.storeRefused (s : State) (pas : List Nat) : Option Byte :=
  if pas.any fun p => s.activeLine (s.key p) then some 0x2C
  else if pas.any fun p => s.stamped (s.key p) then some 0xB4
  else none

/-! ### Instruction fetch (R21, R59) -/

/-- The words of storage that stale copies are kept of, by key of 4 bytes (R21). -/
def Core.noteStale (k : Core) (w : Nat) (old : BitVec 32) : Core :=
  { k with istale := k.istale.set [] w (old :: k.istale.get [] w) }

/-- Before the acting core stores to keys: the words it changes may still be fetched (R21). -/
def State.noteStores (s : State) (ks : List Nat) : State :=
  let ws := (ks.map (· / 4)).eraseDups
  s.setMe (ws.foldl (fun k w => k.noteStale w (BitVec.ofNat 32 (leNat ((addrs (4 * w) 4).map s.byteAt)))) s.me)

/-- What a fetch answers. -/
inductive Fetch where
  | word (w : BitVec 32) (s : State)
  | fault (cause : Byte) (tval : Word)
  deriving DecidableEq, Repr

/-- The word a fetch of storage returns: the word stored, or one it replaced since the last FENCE (R21). -/
def State.fetchChoice (s : State) (k : Nat) (now : BitVec 32) : BitVec 32 × State :=
  match s.me.istale.get [] (k / 4) with
  | [] => (now, s)
  | olds => let (n, s1) := s.choose (olds.length + 1); ((now :: olds).getD n now, s1)

/-- The fetch at pc of the acting core: the range check, the translation, the word (R22, R59). -/
def State.fetch (s : State) : Fetch :=
  let pc := s.me.pc
  if !inRange pc 4 then .fault 0x20 pc
  else match s.translate pc.toNat .fetch with
    | .fault c => .fault c pc
    | .ok pa s1 =>
      match s1.undeliverables (addrs pa 4) with
      | some c => .fault c pc
      | none =>
        if window pa = .block then .word 0 s1
        else
          let r := s1.fetchChoice (s1.key pa) (BitVec.ofNat 32 (s1.physNat pa 4))
          .word r.1 r.2

/-! ### What a core always is -/

/-- What every core of the module keeps to: x0 is not kept, the program counter, TVEC and EPC are multiples of 4 (R10, R11),
STATUS and TCAUSE hold their fields only (R14, R17), QUANTUM is at least 16 and below 2^32 (R231), DRAINB is not 0
(R436), CMOD is below 2^32 (R54), FREC holds bits [51:8] (R412). -/
def Core.legal (k : Core) : Bool :=
  k.x.wf 0 && decide (k.x.get 0 0 = 0) && decide (k.pc.toNat % 4 = 0) && decide (k.tvec.toNat % 4 = 0) &&
  decide (k.epc.toNat % 4 = 0) && decide (k.status.toNat < 32) && decide (k.tcause.toNat < 512) &&
  decide (16 ≤ k.quantum.toNat) && decide (k.quantum.toNat < 2 ^ 32) && decide (k.drainb ≠ 0) &&
  decide (k.cmod.toNat < 2 ^ 32) && decide (k.frec.toNat % 256 = 0) && decide (k.frec.toNat < 2 ^ 52)

/-- What a module always keeps to: its memory is canonical, its cores are legal, and ASTAB, BARTAB and CTXTAB hold their
own bits only (R260, R331, R436). -/
def legalModule (cores : SMap Core) (mem : SMap Byte) (astab bartab ctxtab : Word) : Bool :=
  Memory.wf mem && cores.wf .reset && cores.all (fun p => p.2.legal) &&
  decide (astab = keepAstab astab) && decide (bartab = keepBartab bartab) && decide (ctxtab = keepCtxtab ctxtab)

/-- The legality of what a checkpoint holds. -/
def Snapshot.legal (i : Snapshot) : Bool := legalModule i.cores i.mem i.astab i.bartab i.ctxtab

end Sys2Proof.Machine
end

