-- ==== Sys2Proof/Machine/Block.lean ====
section
/-! DEFINITION. The register block of the module, the release of cores, and the mailbox slots (28 R459, R460; 29 R472). -/

namespace Sys2Proof.Machine

/-! ### Waiters of barriers -/

/-- Every core that waits on the barrier and whose target meets p receives the status and goes on (R329). -/
def State.wake (s : State) (name : Nat) (p : BitVec 16 → Bool) (status : Word) : State :=
  { s with cores := s.cores.mapV Core.reset fun _ k =>
      match k.wait with
      | .barrier n t rd =>
        if n = name && p t then { (k.setReg rd status).setPc (k.pc + 4) with wait := .none } else k
      | _ => k }

/-- Every waiter on a hardware barrier of core c gets INVALID: the barriers of a core that is released after it has stopped are
FREE again (R328, log entry 10). -/
def State.freeBarriers (s : State) (c : CoreIx) : State :=
  (List.range 256).foldl (fun t i => t.wake (256 * c.val + i) (fun _ => true) 2) s

/-! ### Release (R25, R460) -/

/-- The core that a RELEASE value names (R460). -/
def releaseTarget (v : Word) : CoreIx := Fin.ofNat 256 (field v 52 8)

/-- A write to RELEASE (R460). -/
def State.writeRelease (s : State) (v : Word) : State :=
  if field s.block.relstat 0 2 = 1 then s
  else { s with block := { s.block with relstat := BitVec.ofNat 64 (1 + 4 * (releaseTarget v).val), relReq := some v } }

/-- A core as the reset of R25 leaves it, running at a start address. Undelivered causes of graphs stay, and so do the
messages and barriers that a HELD core has been given since the device was reset; a core that had stopped starts anew with
those of reset (R325, R328, log entry 10). -/
def Core.released (k : Core) (start : Word) : Core :=
  { Core.reset with
    run := .running, pc := pcOf start, pending := k.pending
    queues := if k.run = .held then k.queues else []
    barriers := if k.run = .held then k.barriers else [] }

/-- The management complex acts on the pending RELEASE (R460). -/
def State.completeRelease (s : State) : State :=
  match s.block.relReq with
  | none => s
  | some v =>
    let c := releaseTarget v
    let ok := ((s.core c).run = .held || (s.core c).run = .stopped) && field v 60 4 = 0
    let code : Nat := if ok then 2 else 3
    let s1 := { s with block := { s.block with relReq := none, relstat := BitVec.ofNat 64 (code + 4 * c.val) } }
    if ok then
      let s2 := if (s.core c).run = .held then s1 else s1.freeBarriers c
      s2.updCore c fun k => k.released (BitVec.ofNat 64 (field v 0 52))
    else s1

/-! ### Registers of the block (R459) -/

/-- CORESTAT of a core (R459). -/
def runCode : RunState → Byte
  | .held => 0 | .running => 1 | .stopped => 2 | .retired => 3

/-- MBCTL as it reads (R472). -/
def MailboxState.ctl (m : MailboxState) : Word := BitVec.ofNat 64 (4 * b2n m.rsp2.isSome + 2 * b2n m.busy)

/-- The 8 bytes of a slot from an offset on, as a word. -/
def slotWord (bs : List Byte) (o : Nat) : Word := BitVec.ofNat 64 (leNat ((bs.drop o).take 8))

/-- A read of the register block at an aligned offset (R459). -/
def State.blockRead (s : State) (off : Nat) : Word :=
  if 0x100 ≤ off ∧ off < 0x200 then
    BitVec.ofNat 64 (leNat ((List.range 8).map fun i => runCode (s.core (Fin.ofNat 256 (off - 0x100 + i))).run))
  else if 0x240 ≤ off ∧ off < 0x280 then slotWord s.dv.host.rsp (off - 0x240)
  else match off with
    | 0x000 => 0x1D4A1
    | 0x008 => s.block.modnum
    | 0x010 => s.block.qtable
    | 0x018 => s.astab
    | 0x020 => s.bartab
    | 0x028 => s.ctxtab
    | 0x038 => s.block.relstat
    | 0x040 => BitVec.ofNat 64 (s.links.up.toNat + 256 * s.links.spared.toNat)
    | 0x048 => BitVec.ofNat 64 (b2n s.block.repl)
    | 0x050 => Config.serial.setWidth 64
    | 0x058 => s.dv.host.ctl
    | _ => 0

/-- Whether any core runs (R459). -/
def State.anyRunning (s : State) : Bool := s.cores.any fun c => c.2.run = .running

/-- A write to MODNUM, discarded while a core runs (R459). -/
def State.writeModnum (s : State) (v : Word) : State :=
  if s.anyRunning then s else { s with block := { s.block with modnum := BitVec.ofNat 64 (field v 0 7) } }

/-- A write to QTABLE (R459). -/
def State.writeQtable (s : State) (v : Word) : State :=
  { s with block := { s.block with qtable := BitVec.ofNat 64 (field v 12 40 * 2 ^ 12 + field v 0 1) } }

/-- A mailbox. -/
def Dvorrok.box (d : Dvorrok) : Mailbox → MailboxState
  | .host => d.host
  | .management => d.mgmt
/-- A mailbox replaced. -/
def Dvorrok.setBox (d : Dvorrok) (m : Mailbox) (b : MailboxState) : Dvorrok :=
  match m with
  | .host => { d with host := b }
  | .management => { d with mgmt := b }

/-- MBCTL.NEXT: the second response replaces the first (R472). -/
def MailboxState.next (b : MailboxState) : MailboxState :=
  match b.rsp2 with
  | none => b
  | some r => { b with rsp := r, rsp2 := none }

/-- MBCTL.GO: the request is submitted, unless one is (R472). -/
def Dvorrok.go (d : Dvorrok) (m : Mailbox) : Dvorrok :=
  if (d.box m).busy then d
  else { d.setBox m { d.box m with busy := true, rsp2 := none } with order := d.order ++ [m] }

/-- A write to MBCTL (R472). -/
def State.writeMbctl (s : State) (v : Word) : State :=
  let d := if v.getLsbD 3 then { s.dv with host := s.dv.host.next } else s.dv
  { s with dv := if v.getLsbD 0 then d.go .host else d }

/-- A write of 8 bytes into the host's request slot, discarded while BUSY (R472). -/
def State.writeMbreq (s : State) (o : Nat) (v : Word) : State :=
  if s.dv.host.busy then s
  else { s with dv := { s.dv with host := { s.dv.host with
    req := s.dv.host.req.take o ++ leBytes 8 v.toNat ++ s.dv.host.req.drop (o + 8) } } }

/-- A write to the register block at an aligned offset (R459). -/
def State.blockWrite (s : State) (off : Nat) (v : Word) : State :=
  if 0x200 ≤ off ∧ off < 0x240 then s.writeMbreq (off - 0x200) v
  else match off with
    | 0x008 => s.writeModnum v
    | 0x010 => s.writeQtable v
    | 0x018 => s.writeAstab v
    | 0x020 => s.writeBartab v
    | 0x028 => s.writeCtxtab v
    | 0x030 => s.writeRelease v
    | 0x058 => s.writeMbctl v
    | _ => s

def execReleaseWrite (v : Word) (s : State) : Answer := .next (s.writeRelease v)
def execReleaseComplete (s : State) : Answer := .next s.completeRelease
def execModnumWrite (v : Word) (s : State) : Answer := .next (s.writeModnum v)
def execQtableWrite (v : Word) (s : State) : Answer := .next (s.writeQtable v)
def execRegblockWrite (off : BitVec 24) (v : Word) (s : State) : Answer := .next (s.blockWrite off.toNat v)
def execMbctlNext (s : State) : Answer := .next { s with dv := { s.dv with host := s.dv.host.next } }

end Sys2Proof.Machine
end

