-- ==== Sys2Proof/Machine/Tables.lean ====
section
/-! DEFINITION. The fixed integers of FEXP2 and FLOG2, each computed from its formula in R179 with 120 decimal digits. -/

namespace Sys2Proof.Machine

/-- LN2 = round(ln 2 × 2^48) (R179). -/
def tabLn2 : Nat := 195103586505167
/-- LG2E = round(2^64 / ln 2) (R179). -/
def tabLg2e : Int := 26613026195688644983

/-- T[i] = round(2^(i/64) × 2^46), in four parts (R179). -/
def tabT0 : List Nat :=
  [70368744177664, 71135009562114, 71909619029526, 72692663441007,
   73484234647076, 74284425498439, 75093329856877, 75911042606263,
   76737659663686, 77573277990702, 78417995604711, 79271911590451,
   80135126111625, 81007740422643, 81889856880508, 82781578956812]
/-- The next entries of the same table (R179). -/
def tabT1 : List Nat :=
  [83683011249884, 84594259497052, 85515430587047, 86446632572544,
   87387974682833, 88339567336633, 89301522155045, 90273951974643,
   91256970860713, 92250694120627, 93255238317374, 94270721283231,
   95297262133585, 96334981280901, 97384000448854, 98444442686601]
/-- The next entries of the same table (R179). -/
def tabT2 : List Nat :=
  [99516432383215, 100600095282281, 101695558496638, 102802950523295,
   103922401258502, 105054042012986, 106198005527352, 107354425987660,
   108523439041155, 109705181812189, 110899792918296, 112107412486457,
   113328182169538, 114562245162902, 115809746221205, 117070831675383]
/-- The next entries of the same table (R179). -/
def tabT3 : List Nat :=
  [118345649449807, 119634349079640, 120937081728377, 122254000205575,
   123585258984778, 124931014221637, 126291423772226, 127666647211558,
   129056845852306, 130462182763722, 131882822790765, 133318932573440,
   134770680566339, 136238237058409, 137721774192917, 139221465987651]
/-- The whole table (R179). -/
def tabT : List Nat := tabT0 ++ tabT1 ++ tabT2 ++ tabT3

/-- G[i] = round(2^36 / (64 + i)), in four parts (R179). -/
def tabG0 : List Nat :=
  [1073741824, 1057222719, 1041204193, 1025663832,
   1010580540, 995934445, 981706811, 967879954,
   954437177, 941362695, 928641578, 916259690,
   904203641, 892460737, 881018933, 869866794]
/-- The next entries of the same table (R179). -/
def tabG1 : List Nat :=
  [858993459, 848388602, 838042399, 827945503,
   818089009, 808464432, 799063683, 789879043,
   780903145, 772128952, 763549742, 755159085,
   746950834, 738919105, 731058263, 723362913]
/-- The next entries of the same table (R179). -/
def tabG2 : List Nat :=
  [715827883, 708448214, 701219150, 694136129,
   687194767, 680390859, 673720360, 667179386,
   660764199, 654471207, 648296950, 642238100,
   636291451, 630453915, 624722516, 619094385]
/-- The next entries of the same table (R179). -/
def tabG3 : List Nat :=
  [613566757, 608136962, 602802428, 597560667,
   592409282, 587345955, 582368447, 577474594,
   572662306, 567929560, 563274399, 558694933,
   554189329, 549755814, 545392673, 541098242]
/-- The whole table (R179). -/
def tabG : List Nat := tabG0 ++ tabG1 ++ tabG2 ++ tabG3

/-- H[i] = round(−2^64 × log2(G[i] × 2^−30)), in four parts (R179). -/
def tabH0 : List Int :=
  [0, 412613322811757000, 818926957408564430, 1219130379315011467,
   1613404654700825808, 2001922891930623911, 2384850713493654464, 2762346790052610825,
   3134563010232898582, 3501645056951758177, 3863732617192611241, 4220959817437083658,
   4573455397070415920, 4921343033474627337, 5264741674704456969, 5603765720015732058]
/-- The next entries of the same table (R179). -/
def tabH1 : List Int :=
  [5938525182720385613, 6269126016593092154, 6595670329202474620, 6918256402571767976,
   7236979085911690989, 7551929831224883401, 7863196836857639878, 8170865305099367680,
   8475017479077857919, 8775732851443073883, 9073088172815218138, 9367157770134044930,
   9658013413212646894, 9945724592364521085, 10230358618451629735, 10511980566236333990]
/-- The next entries of the same table (R179). -/
def tabH2 : List Int :=
  [10790653531127651069, 11066438657837699987, 11339395187924877476, 11609580488148944999,
   11877050366989853232, 12141858759792024794, 12404058198221132912, 12663699522895565590,
   12920832235100800573, 13175504270568429105, 13427762345287395445, 13677651751188376205,
   13925216567694943730, 14170499640982610281, 14413542655601915512, 14654386175041926885]
/-- The next entries of the same table (R179). -/
def tabH3 : List Int :=
  [14893069605257361474, 15129631425931727969, 15364108911158164942, 15596538598643926016,
   15826955846519456728, 16055395233328313614, 16281890436143767464, 16506474291714368378,
   16729178726240692716, 16950034967450207864, 17169073488330067945, 17386323856844691176,
   17601815110548380069, 17815575524150385764, 18027632613166637053, 18238013387256375775]
/-- The whole table (R179). -/
def tabH : List Int := tabH0 ++ tabH1 ++ tabH2 ++ tabH3

end Sys2Proof.Machine
end

