-- ==== Sys2Proof/Machine/W40.lean ====
section
/-! DEFINITION. Wide floats: reading a pattern, exact values as dyadic numbers, the one rounding, and the operations that
round (08 R152-R155; 09 R174-R179). -/

namespace Sys2Proof.Machine

/-- Rounding modes by their code (R153). -/
inductive Rnd where
  | rne | rtz | rdn | rup
  deriving DecidableEq, Repr

/-- The mode a 2-bit field names (R135, R153). -/
def rndOf : Nat → Rnd
  | 0 => .rne | 1 => .rtz | 2 => .rdn | _ => .rup

/-- A value read from a pattern: a NaN, an infinity, or (−1)^neg × m × 2^e; m = 0 is a signed zero (R152). -/
inductive Num where
  | nan
  | inf (neg : Bool)
  | fin (neg : Bool) (m : Nat) (e : Int)
  deriving DecidableEq, Repr

/-- The value of a W40 pattern (R152). -/
def readW40 (w : Lane) : Num :=
  let s := w.getLsbD 39
  let e : Nat := w.toNat / 2 ^ 29 % 1024
  let m : Nat := w.toNat % 2 ^ 29
  if e = 0 then .fin s 0 0
  else if e = 1023 then (if m = 0x10000000 then .inf s else .nan)
  else .fin s m ((e : Int) - 539)

/-- The NaN of every result (R152). -/
def wNan : Lane := 0x7FF8000000
/-- An infinity. -/
def wInf (neg : Bool) : Lane := if neg then 0xFFF0000000 else 0x7FF0000000
/-- A zero. -/
def wZero (neg : Bool) : Lane := if neg then 0x8000000000 else 0
/-- The largest finite value. -/
def wMax (neg : Bool) : Lane := if neg then 0xFFDFFFFFFF else 0x7FDFFFFFFF

/-- Whether a magnitude q plus a part r of n parts is rounded up to q + 1 (R153 round_int). -/
def roundsUp (rnd : Rnd) (neg : Bool) (q r n : Nat) : Bool :=
  match rnd with
  | .rne => 2 * r > n || (2 * r = n && q % 2 = 1)
  | .rtz => false
  | .rdn => neg && r ≠ 0
  | .rup => !neg && r ≠ 0

/-- round_int of the magnitude m × 2^−k (R153). -/
def roundShift (rnd : Rnd) (neg : Bool) (m k : Nat) : Nat :=
  let q := m / 2 ^ k
  if roundsUp rnd neg q (m % 2 ^ k) (2 ^ k) then q + 1 else q

/-- round_int of the magnitude m × 2^e (R153). -/
def roundInt (rnd : Rnd) (neg : Bool) (m : Nat) (e : Int) : Nat :=
  if 0 ≤ e then m * 2 ^ e.toNat else roundShift rnd neg m (-e).toNat

/-- w40_ovf (R153). -/
def wOvf (neg : Bool) (rnd : Rnd) : Lane :=
  match rnd with
  | .rne => wInf neg
  | .rtz => wMax neg
  | .rdn => if neg then wInf true else wMax false
  | .rup => if neg then wMax true else wInf false

/-- w40_round of (−1)^neg × m × 2^e, with zs the sign of an exact zero (R153, R154). -/
def wRound (neg : Bool) (m : Nat) (e : Int) (rnd : Rnd) (zs : Bool) : Lane :=
  if m = 0 then wZero zs
  else
    let l := Nat.log2 m
    let r := if l ≤ 28 then m * 2 ^ (28 - l) else roundShift rnd neg m (l - 28)
    let x : Int := (l : Int) + e + (if r = 2 ^ 29 then 1 else 0)
    let r1 := if r = 2 ^ 29 then 2 ^ 28 else r
    if x < -510 then wZero neg
    else if x > 511 then wOvf neg rnd
    else BitVec.ofNat 40 ((if neg then 2 ^ 39 else 0) + (x + 511).toNat * 2 ^ 29 + r1)

/-- w40_round of a value already read. -/
def Num.round (x : Num) (rnd : Rnd) : Lane :=
  match x with
  | .nan => wNan
  | .inf s => wInf s
  | .fin s m e => wRound s m e rnd s

/-- A pattern in canonical form (R152, R173). -/
def canon (w : Lane) : Lane := (readW40 w).round .rne

/-- A dyadic number k × 2^e. -/
structure Dy where
  k : Int
  e : Int
  deriving DecidableEq, Repr

/-- The exact sum. -/
def Dy.add (a b : Dy) : Dy :=
  let e := min a.e b.e
  ⟨a.k * 2 ^ (a.e - e).toNat + b.k * 2 ^ (b.e - e).toNat, e⟩
/-- The exact product. -/
def Dy.mul (a b : Dy) : Dy := ⟨a.k * b.k, a.e + b.e⟩
/-- The floor of a dyadic number. -/
def Dy.floor (a : Dy) : Int := if 0 ≤ a.e then a.k * 2 ^ a.e.toNat else a.k / 2 ^ (-a.e).toNat
/-- The sign of a − b. -/
def Dy.cmp (a b : Dy) : Int := (a.add ⟨-b.k, b.e⟩).k.sign
/-- w40_round of a dyadic number. -/
def Dy.round (a : Dy) (rnd : Rnd) (zs : Bool) : Lane := wRound (a.k < 0) a.k.natAbs a.e rnd zs

/-- A finite value as a dyadic number. -/
def dy (neg : Bool) (m : Nat) (e : Int) : Dy := ⟨if neg then -(m : Int) else m, e⟩

/-- The sign of an exact zero sum of operands with these signs, where an operand is zero or not (R154). -/
def zeroSumSign (sa sb : Bool) (rnd : Rnd) : Bool := if sa = sb then sa else rnd = .rdn

/-- The exact sum of two values, rounded once (R153-R155). -/
def addNum (x y : Num) (rnd : Rnd) : Lane :=
  match x, y with
  | .nan, _ => wNan
  | _, .nan => wNan
  | .inf a, .inf b => if a = b then wInf a else wNan
  | .inf a, .fin _ _ _ => wInf a
  | .fin _ _ _, .inf b => wInf b
  | .fin a m e, .fin b n f => ((dy a m e).add (dy b n f)).round rnd (zeroSumSign a b rnd)

/-- The exact product of two values (R155). -/
def mulNum (x y : Num) : Num :=
  match x, y with
  | .nan, _ => .nan
  | _, .nan => .nan
  | .inf a, .inf b => .inf (a != b)
  | .inf a, .fin b n _ => if n = 0 then .nan else .inf (a != b)
  | .fin a m _, .inf b => if m = 0 then .nan else .inf (a != b)
  | .fin a m e, .fin b n f => .fin (a != b) (m * n) (e + f)

/-- The negated value. -/
def Num.neg : Num → Num
  | .nan => .nan
  | .inf s => .inf (!s)
  | .fin s m e => .fin (!s) m e

def fadd (a b : Lane) (rnd : Rnd) : Lane := addNum (readW40 a) (readW40 b) rnd
def fsub (a b : Lane) (rnd : Rnd) : Lane := addNum (readW40 a) (readW40 b).neg rnd
def fmul (a b : Lane) (rnd : Rnd) : Lane := (mulNum (readW40 a) (readW40 b)).round rnd
def ffma (a b c : Lane) (rnd : Rnd) : Lane := addNum (mulNum (readW40 a) (readW40 b)) (readW40 c) rnd

/-- Whether x < y for values that are no NaN; −0 and +0 are equal. -/
def Num.lt : Num → Num → Bool
  | .nan, _ => false
  | _, .nan => false
  | .inf a, .inf b => a && !b
  | .inf a, .fin _ _ _ => a
  | .fin _ _ _, .inf b => !b
  | .fin a m e, .fin b n f => (dy a m e).cmp (dy b n f) < 0

/-- Whether two values are equal; −0 and +0 are. -/
def Num.eq (x y : Num) : Bool := x ≠ .nan && y ≠ .nan && !x.lt y && !y.lt x

/-- The sign of a value. -/
def Num.sgn : Num → Bool
  | .nan => false
  | .inf s => s
  | .fin s _ _ => s

/-- Whether the first of two values is the smaller, −0 below +0 (R175). -/
def Num.below (x y : Num) : Bool := x.lt y || (x.eq y && x.sgn && !y.sgn)

/-- FMAX and FMIN (R175). -/
def fmax (a b : Lane) : Lane :=
  match readW40 a, readW40 b with
  | .nan, y => y.round .rne
  | x, .nan => x.round .rne
  | x, y => if x.below y then y.round .rne else x.round .rne
def fmin (a b : Lane) : Lane :=
  match readW40 a, readW40 b with
  | .nan, y => y.round .rne
  | x, .nan => x.round .rne
  | x, y => if y.below x then y.round .rne else x.round .rne

/-- The integer square root of n by its bits from b − 1 down. -/
def isqrtFrom (n : Nat) : Nat → Nat → Nat
  | 0, r => r
  | b + 1, r => if (r + 2 ^ b) * (r + 2 ^ b) ≤ n then isqrtFrom n b (r + 2 ^ b) else isqrtFrom n b r
/-- The integer square root of a number below 2^128. -/
def isqrt (n : Nat) : Nat := isqrtFrom n 64 0

/-- A quotient with a last bit that says whether a part was left: it rounds as the exact value does. -/
def sticky (q : Nat) (exact : Bool) : Nat := 2 * q + (if exact then 0 else 1)

/-- FRCP (R174). -/
def frcp (a : Lane) (rnd : Rnd) : Lane :=
  match readW40 a with
  | .nan => wNan
  | .inf s => wZero s
  | .fin s m e =>
    if m = 0 then wInf s
    else wRound s (sticky (2 ^ 80 / m) (2 ^ 80 % m = 0)) (-81 - e) rnd s

/-- FRSQ (R174). -/
def frsq (a : Lane) (rnd : Rnd) : Lane :=
  match readW40 a with
  | .nan => wNan
  | .inf s => if s then wNan else wZero false
  | .fin s m e =>
    if m = 0 then wInf s
    else if s then wNan
    else
      let n := if e % 2 = 0 then m else 2 * m
      let f := if e % 2 = 0 then e else e - 1
      let r := isqrt (2 ^ 120 / n)
      wRound false (sticky r (r * r * n = 2 ^ 120)) (-61 - f / 2) rnd false

/-- FEXP2 by its algorithm (R177). -/
def fexp2 (a : Lane) (rnd : Rnd) : Lane :=
  match readW40 a with
  | .nan => wNan
  | .inf s => if s then 0 else wInf false
  | .fin s m e =>
    let x := dy s m e
    if x.cmp ⟨-511, 0⟩ < 0 then 0
    else if x.cmp ⟨512, 0⟩ ≥ 0 then wOvf false rnd
    else
      let n := x.floor
      let g := ((Dy.mk x.k (x.e + 48)).floor - n * 2 ^ 48).toNat
      let i := g / 2 ^ 42
      let f := g - i * 2 ^ 42
      let u := f * tabLn2 / 2 ^ 48
      let q := 2 ^ 48 + u + u ^ 2 / 2 ^ 49 + u ^ 3 / (6 * 2 ^ 96) + u ^ 4 / (24 * 2 ^ 144)
      wRound false (tabT.getD i 0 * q / 2 ^ 48) (n - 46) rnd false

/-- FLOG2 by its algorithm (R178). -/
def flog2 (a : Lane) (rnd : Rnd) : Lane :=
  match readW40 a with
  | .nan => wNan
  | .inf s => if s then wNan else wInf false
  | .fin s m e =>
    if m = 0 then wInf true
    else if s then wNan
    else
      let l := Nat.log2 m
      let k : Int := (l : Int) + e
      let mm := m * 2 ^ (28 - l)
      let i := mm / 2 ^ 22 - 64
      let z : Int := ((mm * tabG.getD i 0 : Nat) - (2 ^ 58 : Int)) * 2 ^ 6
      let t := z - z ^ 2 / 2 ^ 65 + z ^ 3 / (3 * 2 ^ 128) - z ^ 4 / (4 * 2 ^ 192) + z ^ 5 / (5 * 2 ^ 256)
        - z ^ 6 / (6 * 2 ^ 320) + z ^ 7 / (7 * 2 ^ 384)
      let y := k * 2 ^ 64 + tabH.getD i 0 + t * tabLg2e / 2 ^ 64
      (Dy.mk y (-64)).round rnd false

/-- FSCL: a × 2^n (R174). -/
def fscl (a : Lane) (n : Int) (rnd : Rnd) : Lane :=
  match readW40 a with
  | .nan => wNan
  | .inf s => wInf s
  | .fin s m e => wRound s m (e + n) rnd s

/-! ### Integer lanes (R157) -/

/-- An integer lane's value (R157). -/
def sint32 (l : Lane) : Int := (l.setWidth 32).toInt
/-- Its bits [31:0] as an unsigned number. -/
def uint32 (l : Lane) : Nat := l.toNat % 2 ^ 32
/-- int_out (R157). -/
def intOut (v : Int) (sat : Bool) : Lane :=
  let c := if sat then min (max v (-2 ^ 31)) (2 ^ 31 - 1) else v
  (BitVec.ofInt 32 c).signExtend 40

/-- FCVT KIND F2I (R176). -/
def f2i (a : Lane) (rnd : Rnd) : Lane :=
  match readW40 a with
  | .nan => 0
  | .inf s => intOut (if s then -2 ^ 31 else 2 ^ 31 - 1) true
  | .fin s m e =>
    let v : Int := if e > 64 then (if m = 0 then 0 else 2 ^ 40) else roundInt rnd s m e
    intOut (if s then -v else v) true
/-- FCVT KIND I2F (R176). -/
def i2f (a : Lane) (rnd : Rnd) : Lane := (Dy.mk (sint32 a) 0).round rnd false
/-- FCVT KIND RINT (R176). -/
def rint (a : Lane) (rnd : Rnd) : Lane :=
  match readW40 a with
  | .nan => wNan
  | .inf s => wInf s
  | .fin s m e => if 0 ≤ e then wRound s m e rnd s else wRound s (roundInt rnd s m e) 0 rnd s

/-- Conditions of FCMP by their code (R135, R175). -/
def fcond (c : Nat) (a b : Lane) : Bool :=
  let x := readW40 a
  let y := readW40 b
  let ok : Bool := x ≠ .nan && y ≠ .nan
  match c with
  | 0 => x.eq y
  | 1 => !x.eq y
  | 2 => ok && x.lt y
  | 3 => ok && !y.lt x
  | 4 => ok && y.lt x
  | 5 => ok && !x.lt y
  | 6 => !ok
  | _ => ok

/-- Conditions of ICMP; UN and OR never hold (R180, R193). -/
def icond (c : Nat) (a b : Int) : Bool :=
  match c with
  | 0 => a = b
  | 1 => a ≠ b
  | 2 => a < b
  | 3 => a ≤ b
  | 4 => a > b
  | 5 => a ≥ b
  | _ => false

end Sys2Proof.Machine
end

