-- ==== Sys2Proof/Machine/Formats.lean ====
section
/-! DEFINITION. Storage formats at the memory edge: their encodings, the conversions into and out of W40, and where the
elements of a format lie (13 R268-R277; 08 R156). -/

namespace Sys2Proof.Machine

/-- A float format (R268, R272): width, exponent bits, fraction bits, bias, whether its all-ones exponent holds infinity
and NaN, the pattern of the NaN it writes, the pattern of its largest finite magnitude. -/
structure FloatFmt where
  w    : Nat
  eb   : Nat
  m    : Nat
  bias : Nat
  ieee : Bool
  nan  : Option Nat
  top  : Nat
  deriving DecidableEq, Repr

def fmtFp32 : FloatFmt := ⟨32, 8, 23, 127, true, some 0x7FC00000, 0x7F7FFFFF⟩
def fmtFp16 : FloatFmt := ⟨16, 5, 10, 15, true, some 0x7E00, 0x7BFF⟩
def fmtBf16 : FloatFmt := ⟨16, 8, 7, 127, true, some 0x7FC0, 0x7F7F⟩
def fmtE4m3 : FloatFmt := ⟨8, 4, 3, 7, false, some 0x7F, 0x7E⟩
def fmtE5m2 : FloatFmt := ⟨8, 5, 2, 15, true, some 0x7E, 0x7B⟩
def fmtE3m2 : FloatFmt := ⟨6, 3, 2, 3, false, none, 0x1F⟩
def fmtE2m3 : FloatFmt := ⟨6, 2, 3, 1, false, none, 0x1F⟩
def fmtE2m1 : FloatFmt := ⟨4, 2, 1, 1, false, none, 0x7⟩

/-- The subnormal quantum's exponent, F.q (R272). -/
def FloatFmt.qe (f : FloatFmt) : Int := 1 - (f.bias : Int) - f.m

/-- The value of an encoding (R156, R268). -/
def FloatFmt.read (f : FloatFmt) (v : Nat) : Num :=
  let s : Bool := v / 2 ^ (f.w - 1) % 2 = 1
  let x := v / 2 ^ f.m % 2 ^ f.eb
  let r := v % 2 ^ f.m
  if f.ieee && x = 2 ^ f.eb - 1 then (if r = 0 then .inf s else .nan)
  else if f.nan.any fun n => v % 2 ^ (f.w - 1) = n then .nan
  else if x = 0 then .fin s r f.qe
  else .fin s (2 ^ f.m + r) ((x : Int) - f.bias - f.m)

/-- enc of a value r × 2^qe on the format's grid (R272). -/
def FloatFmt.enc (f : FloatFmt) (neg : Bool) (r : Nat) (qe : Int) : Nat :=
  let sb := b2n neg * 2 ^ (f.w - 1)
  if r = 0 then sb
  else
    let e : Int := (Nat.log2 r : Int) + qe
    if e < 1 - (f.bias : Int) then sb + r * 2 ^ (qe - f.qe).toNat
    else
      let frac := if qe ≤ e - (f.m : Int) then r / 2 ^ (e - (f.m : Int) - qe).toNat else r * 2 ^ (qe - (e - (f.m : Int))).toNat
      sb + (e + f.bias).toNat * 2 ^ f.m + frac % 2 ^ f.m

/-- The encoding of an infinity. -/
def FloatFmt.infBits (f : FloatFmt) (neg : Bool) : Nat := b2n neg * 2 ^ (f.w - 1) + (2 ^ f.eb - 1) * 2 ^ f.m
/-- The encoding of the largest finite value. -/
def FloatFmt.maxBits (f : FloatFmt) (neg : Bool) : Nat := b2n neg * 2 ^ (f.w - 1) + f.top

/-- store_float: the encoding, and whether a conversion event was raised (R272, R274). -/
def FloatFmt.store (f : FloatFmt) (x : Num) (sat : Bool) : Nat × Bool :=
  match x with
  | .nan => match f.nan with
    | some n => (n, false)
    | none => (f.maxBits false, true)
  | .inf s => (if f.ieee && !sat then f.infBits s else f.maxBits s, false)
  | .fin s m e =>
    if m = 0 then (f.enc s 0 0, false)
    else
      let qe := max ((Nat.log2 m : Int) + e - (f.m : Int)) f.qe
      let r := roundInt .rne s m (e - qe)
      let top := match f.read f.top with
        | .fin _ n g => Dy.mk n g
        | _ => Dy.mk 0 0
      if (Dy.mk r qe).cmp top ≤ 0 then (f.enc s r qe, false)
      else (if f.ieee && !sat then f.infBits s else f.maxBits s, false)

/-- fp32_round of a value: binary32 with RNE, subnormals kept, overflow to infinity (R361). -/
def fp32Round (x : Num) : Nat := (fmtFp32.store x false).1

/-! ### Format codes (R268) -/

/-- The kind of a format code. -/
inductive FmtKind where
  | float (f : FloatFmt)
  | int (w : Nat) (signed : Bool)
  | il32
  | w40s
  | mx (f : FloatFmt) (emax : Nat)
  | mxInt8
  | sd (d : Nat)
  | bad
  deriving DecidableEq, Repr

/-- The format a code names (R268). -/
def fmtOf (c : Nat) : FmtKind :=
  match c with
  | 0x00 => .float fmtFp32 | 0x01 => .float fmtFp16 | 0x02 => .float fmtBf16 | 0x03 => .float fmtE4m3
  | 0x04 => .float fmtE5m2 | 0x05 => .float fmtE3m2 | 0x06 => .float fmtE2m3 | 0x07 => .float fmtE2m1
  | 0x08 => .int 32 true | 0x09 => .int 16 true | 0x0A => .int 8 true | 0x0B => .int 4 true | 0x0C => .int 8 false
  | 0x0D => .il32 | 0x0E => .w40s
  | 0x10 => .mx fmtE4m3 8 | 0x11 => .mx fmtE5m2 15 | 0x12 => .mx fmtE3m2 4 | 0x13 => .mx fmtE2m3 2
  | 0x14 => .mx fmtE2m1 2 | 0x15 => .mxInt8
  | c => if 0x17 ≤ c ∧ c ≤ 0x1F then .sd (c - 0x13) else .bad

/-- Element width in bits (R268). -/
def FmtKind.width : FmtKind → Nat
  | .float f => f.w
  | .int w _ => w
  | .il32 => 32
  | .w40s => 40
  | .mx f _ => f.w
  | .mxInt8 => 8
  | .sd _ => 3
  | .bad => 8

/-- Whether a stride counts elements rather than bytes (R311). -/
def FmtKind.byElement : FmtKind → Bool
  | .float f => f.w % 8 ≠ 0
  | .int w _ => w % 8 ≠ 0
  | .mx _ _ => true
  | .mxInt8 => true
  | .sd _ => true
  | _ => false

/-- Whether the format is an MX format. -/
def FmtKind.isMx : FmtKind → Bool
  | .mx _ _ => true
  | .mxInt8 => true
  | _ => false

/-- Bytes of the elements of one MX block (R270). -/
def FmtKind.mxBytes (k : FmtKind) : Nat := k.width * 4
/-- Bytes of one superblock (R270). -/
def FmtKind.superBytes (k : FmtKind) : Nat := 8 + 8 * k.mxBytes

/-- Where element n lies from BASE: the first byte and the bit within it (R269-R271); for an SD format, its block. -/
def FmtKind.place (k : FmtKind) (n : Int) : Int × Nat :=
  match k with
  | .sd d => (n / 32 * (4 + 12 * d), 0)
  | _ =>
    if k.isMx then
      let b := n / 32
      let bit : Int := n % 32 * k.width
      (b / 8 * k.superBytes + 8 + b % 8 * k.mxBytes + bit / 8, (bit % 8).toNat)
    else
      let bit : Int := n * k.width
      (bit / 8, (bit % 8).toNat)

/-- Where the scale byte of element n's block lies from BASE (R270). -/
def FmtKind.scaleAt (k : FmtKind) (n : Int) : Int := n / 256 * k.superBytes + n / 32 % 8

/-- Bytes that the bits of one element span from a bit offset. -/
def spanBytes (bit w : Nat) : Nat := (bit + w + 7) / 8

/-- A value times a power of two. -/
def Num.scale (x : Num) (k : Int) : Num :=
  match x with
  | .fin s m e => .fin s m (e + k)
  | y => y

/-- Loading one plain element (R156, R268); c is the E8M0 scale of an MX block. -/
def FmtKind.load (k : FmtKind) (v c : Nat) : Lane :=
  match k with
  | .float f => (f.read v).round .rne
  | .int w s => (Dy.mk (if s then (BitVec.ofNat w v).toInt else v) 0).round .rne false
  | .il32 => (BitVec.ofNat 32 v).signExtend 40
  | .w40s => BitVec.ofNat 40 v
  | .mx f _ => if c = 255 then wNan else ((f.read v).scale ((c : Int) - 127)).round .rne
  | .mxInt8 => if c = 255 then wNan else (Dy.mk (BitVec.ofNat 8 v).toInt ((c : Int) - 127 - 6)).round .rne false
  | .sd _ => 0
  | .bad => 0

/-- round_int to a clamped integer format, and whether a conversion event was raised (R273). -/
def storeInt (x : Num) (lo hi : Int) : Int × Bool :=
  match x with
  | .nan => (hi, true)
  | .inf s => (if s then lo else hi, false)
  | .fin s m e =>
    let r : Int := if e > 64 then (if m = 0 then 0 else 2 ^ 64) else roundInt .rne s m e
    (max lo (min hi (if s then -r else r)), false)

/-- Storing one lane into a plain format (R272, R273). -/
def FmtKind.store (k : FmtKind) (x : Lane) (ovf : Bool) : Nat × Bool :=
  match k with
  | .float f => f.store (readW40 x) (!ovf)
  | .int w s =>
    let r := if s then storeInt (readW40 x) (-2 ^ (w - 1)) (2 ^ (w - 1) - 1) else storeInt (readW40 x) 0 (2 ^ w - 1)
    ((BitVec.ofInt w r.1).toNat, r.2)
  | .il32 => (uint32 x, false)
  | .w40s => (x.toNat, false)
  | _ => (0, false)

/-- floor(log2) of a magnitude. -/
def floorLog2 (m : Nat) (e : Int) : Int := (Nat.log2 m : Int) + e

/-- The scale code of an MX block from its largest magnitude, and whether a conversion event was raised (R276). -/
def FmtKind.mxScale (k : FmtKind) (amax : Lane) : Nat × Bool :=
  match readW40 amax with
  | .fin _ m e =>
    if m = 0 then (0, false)
    else
      let emax : Nat := match k with | .mx _ x => x | _ => 0
      ((min (max (floorLog2 m e - emax + 127) 0) 254).toNat, false)
  | _ => (255, true)

/-- One element of an MX block under a scale code (R276). -/
def FmtKind.mxStore (k : FmtKind) (c : Nat) (x : Lane) : Nat × Bool :=
  if c = 255 then (0, false)
  else
    let y := (readW40 x).scale (127 - (c : Int))
    match k with
    | .mx f _ => f.store y true
    | _ => let r := storeInt (y.scale 6) (-128) 127; ((BitVec.ofInt 8 r.1).toNat, r.2)

/-- The code of a digit, −4 for one that is no digit (R160). -/
def digitCode (v : Int) : Nat := ((if v < -4 ∨ v > 3 then -4 else v) % 8).toNat
/-- The digit of a code (R160, R163). -/
def codeDigit (c : Nat) : Int := (BitVec.ofNat 3 c).toInt

end Sys2Proof.Machine
end

