-- ==== Sys2Proof/Machine/CellOps.lean ====
section
/-! DEFINITION. Tokens, the lane results of the compute-cell opcodes, and the firing that CELL and CELL3 reproduce
(05 R88-R101; 07 R135, R144; 09 R170-R193). -/

namespace Sys2Proof.Machine

/-! ### Tokens -/

/-- Sixteen lanes from a function of the lane number. -/
def lanesOf (f : Nat → Lane) : List Lane := (List.range 16).map f
/-- A lane of a token. -/
def Token.lane (t : Token) (i : Nat) : Lane := t.lanes.getD i 0
/-- Whether a lane is valid (R89). -/
def Token.valid (t : Token) (i : Nat) : Bool := t.mask.getLsbD i
/-- A stop token. -/
def Token.isStop (t : Token) : Bool := 1 ≤ t.kind.val && t.kind.val ≤ 6
/-- D. -/
def Token.isDone (t : Token) : Bool := t.kind = 7
/-- A stop or D. -/
def Token.closes (t : Token) : Bool := t.kind ≠ 0
/-- The level of a stop. -/
def Token.level (t : Token) : Nat := t.kind.val - 1

/-- A stop token of level k (R91). -/
def stopTok (k : Nat) : Token := ⟨Fin.ofNat 8 (k % 6 + 1), false, false, 0, lanesOf fun _ => 0⟩
/-- D (R91). -/
def doneTok : Token := ⟨7, false, false, 0, lanesOf fun _ => 0⟩
/-- A stop or D emitted anew, all other fields zero (R91). -/
def Token.bare (t : Token) : Token := ⟨t.kind, false, false, 0, lanesOf fun _ => 0⟩
/-- A value token with zero in its invalid lanes (R91). -/
def valueTok (mask : BitVec 16) (fill : Bool) (f : Nat → Lane) : Token :=
  ⟨0, false, fill, mask, lanesOf fun i => if mask.getLsbD i then f i else 0⟩
/-- A token all of whose lanes hold a constant (R136). -/
def constTok (v : Lane) : Token := ⟨0, false, false, 0xFFFF, lanesOf fun _ => v⟩
/-- An error token: lane 0 and lane 1 (R101). -/
def errTok (lane0 loc : Nat) : Token :=
  ⟨0, true, false, 3, lanesOf fun i => if i = 0 then BitVec.ofNat 40 lane0 else if i = 1 then BitVec.ofNat 40 loc else 0⟩

/-! ### Modifiers (R135, R170) -/

/-- RND. -/
def modRnd (m : BitVec 24) : Rnd := rndOf (m.toNat / 2 ^ 22)
/-- SAT. -/
def modSat (m : BitVec 24) : Bool := m.getLsbD 21
/-- COND. -/
def modCond (m : BitVec 24) : Nat := m.toNat / 2 ^ 18 % 8
/-- Bits of OPX. -/
def opx (m : BitVec 24) (lo n : Nat) : Nat := m.toNat / 2 ^ lo % 2 ^ n
/-- A signed field. -/
def signedField (v n : Nat) : Int := (BitVec.ofNat n v).toInt

/-- N of LSHIFT (R170). -/
def shiftN (m : BitVec 24) : Int := signedField (opx m 0 5) 5
/-- STEP of GEN (R170). -/
def genStep (m : BitVec 24) : Int := signedField (opx m 3 13) 13
/-- LVL of GEN and the fibre opcodes; 6 and 7 under CELL count as 5 (R170, log entry 12). -/
def lvlField (m : BitVec 24) : Nat := min (opx m 0 3) 5
/-- N of DELAY; 0 and values above 32 behave as 1 (R193). -/
def delayN (m : BitVec 24) : Nat := let n := opx m 0 6; if n = 0 ∨ n > 32 then 1 else n
/-- K of TOPK; 0 and values above 64 behave as 64 (R193). -/
def topK (m : BitVec 24) : Nat := let k := opx m 0 7; if k = 0 ∨ k > 64 then 64 else k

/-! ### Per-lane results (R174-R180) -/

/-- The operator of LRED, LSCAN and FREDUCE: sum, max or min; code 3 is a sum (R181, R193). -/
def redOp (op : Nat) (rnd : Rnd) (a b : Lane) : Lane :=
  match op with
  | 1 => fmax a b
  | 2 => fmin a b
  | _ => fadd a b rnd

/-- Philox-4×32 rounds (R185). -/
def philoxRounds : Nat → Nat → Nat → Nat → Nat → Nat → Nat → Nat × Nat × Nat × Nat
  | 0, c0, c1, c2, c3, _, _ => (c0, c1, c2, c3)
  | r + 1, c0, c1, c2, c3, k0, k1 =>
    let p0 := 0xD2511F53 * c0
    let p1 := 0xCD9E8D57 * c2
    philoxRounds r (p1 / 2 ^ 32 ^^^ c1 ^^^ k0) (p1 % 2 ^ 32) (p0 / 2 ^ 32 ^^^ c3 ^^^ k1) (p0 % 2 ^ 32)
      ((k0 + 0x9E3779B9) % 2 ^ 32) ((k1 + 0xBB67AE85) % 2 ^ 32)
/-- Philox-4×32-10 (R185). -/
def philox (c0 c1 c2 c3 k0 k1 : Nat) : Nat × Nat × Nat × Nat := philoxRounds 10 c0 c1 c2 c3 k0 k1

/-- The lane result of RNG (R185). -/
def rngLane (m : BitVec 24) (a b c : Lane) : Lane :=
  let r := philox (uint32 a) (uint32 b / 2 ^ 16) (uint32 b % 2 ^ 16) 0 (uint32 c) 0
  let w := match opx m 0 2 with
    | 0 => r.1 | 1 => r.2.1 | 2 => r.2.2.1 | _ => r.2.2.2
  if opx m 2 1 = 1 then (BitVec.ofNat 32 w).signExtend 40 else wRound false (w / 8) (-29) .rne false

/-- The lane result of an opcode that computes lane by lane (R174, R176, R180, R182, R185); none for the others. -/
def laneOp (op : Nat) (m : BitVec 24) (a b c : Lane) : Option Lane :=
  let rnd := modRnd m
  let x := sint32 a
  let y := sint32 b
  let s := uint32 b % 32
  match op with
  | 0x01 => some (fadd a b rnd)
  | 0x02 => some (fsub a b rnd)
  | 0x03 => some (fmul a b rnd)
  | 0x04 => some (ffma a b c rnd)
  | 0x05 => some (fmax a b)
  | 0x06 => some (fmin a b)
  | 0x07 => some (frcp a rnd)
  | 0x08 => some (frsq a rnd)
  | 0x09 => some (fexp2 a rnd)
  | 0x0A => some (flog2 a rnd)
  | 0x0B => some (fscl a y rnd)
  | 0x0C => some (if fcond (modCond m) a b then 1 else 0)
  | 0x0D => some (if sint32 c ≠ 0 then a else b)
  | 0x0E => some (match opx m 0 2 with | 0 => f2i a rnd | 1 => i2f a rnd | _ => rint a rnd)
  | 0x10 => some (intOut (x + y) (modSat m))
  | 0x11 => some (intOut (x - y) (modSat m))
  | 0x12 => some (intOut (x * y) (modSat m))
  | 0x13 => some (intOut (x * y + sint32 c) (modSat m))
  | 0x14 => some (intOut ((a &&& b).setWidth 32).toInt false)
  | 0x15 => some (intOut ((a ||| b).setWidth 32).toInt false)
  | 0x16 => some (intOut ((a ^^^ b).setWidth 32).toInt false)
  | 0x17 => some (intOut (x * 2 ^ s) (modSat m))
  | 0x18 => some (if opx m 0 1 = 1 then intOut (uint32 a / 2 ^ s : Nat) false else intOut (x / 2 ^ s) false)
  | 0x19 => some (if icond (modCond m) x y then 1 else 0)
  | 0x1A => some (intOut (min x y) false)
  | 0x1B => some (intOut (max x y) false)
  | 0x2C => some b
  | 0x30 => some (rngLane m a b c)
  | _ => none

/-! ### Lane operations (R158, R159, R181) -/

/-- One pair of the reduction tree; an absent member gives the other (R159). -/
def redPair (op : Nat) (rnd : Rnd) (x y : Option Lane) : Option Lane :=
  match x, y with
  | some a, some b => some (redOp op rnd a b)
  | some a, none => some (canon a)
  | none, some b => some (canon b)
  | none, none => none

/-- One level of the tree (R158). -/
def redLevel (op : Nat) (rnd : Rnd) : List (Option Lane) → List (Option Lane)
  | x :: y :: r => redPair op rnd x y :: redLevel op rnd r
  | l => l

/-- The result of LRED (R158, R159). -/
def lred (m : BitVec 24) (t : Token) : Token :=
  let l0 := (List.range 16).map fun i => if t.valid i then some (t.lane i) else none
  let go := redLevel (opx m 0 2) (modRnd m)
  match (go (go (go (go l0)))).headD none with
  | some v => valueTok 1 t.fill fun _ => v
  | none => valueTok 0 t.fill fun _ => 0

/-- The running values of LSCAN (R158, R159). -/
def lscanFrom (m : BitVec 24) (t : Token) : List Nat → Option Lane → List Lane
  | [], _ => []
  | i :: r, acc =>
    if t.valid i then
      let v := match acc with
        | none => canon (t.lane i)
        | some a => redOp (opx m 0 2) (modRnd m) a (t.lane i)
      v :: lscanFrom m t r (some v)
    else 0 :: lscanFrom m t r acc

/-- The source lane of LSHIFT for output lane i, if any (R181). -/
def shiftSrc (m : BitVec 24) (i : Nat) : Option Nat :=
  let j : Int := (i : Int) - shiftN m
  if opx m 5 1 = 1 then some (j % 16).toNat
  else if 0 ≤ j ∧ j ≤ 15 then some j.toNat else none

/-- Lane operations on tokens (R181). -/
def laneTok (op : Nat) (m : BitVec 24) (a b : Token) : Option Token :=
  match op with
  | 0x20 => let k := opx m 0 4; some (valueTok (if a.valid k then 0xFFFF else 0) a.fill fun _ => a.lane k)
  | 0x21 =>
    let src := fun i => (b.lane i).toNat % 16
    let mask := BitVec.ofNat 16 (((List.range 16).filter fun i => b.valid i && a.valid (src i)).foldl (· + 2 ^ ·) 0)
    some (valueTok mask (a.fill || b.fill) fun i => a.lane (src i))
  | 0x22 => some (lred m a)
  | 0x23 => let l := lscanFrom m a (List.range 16) none; some (valueTok a.mask a.fill fun i => l.getD i 0)
  | 0x24 =>
    let mask := BitVec.ofNat 16 (((List.range 16).filter fun i =>
      match shiftSrc m i with | some j => a.valid j | none => false).foldl (· + 2 ^ ·) 0)
    some (valueTok mask a.fill fun i => match shiftSrc m i with | some j => a.lane j | none => 0)
  | _ => none

/-! ### Rankings and signed digits under CELL (R187, R189, R190, R192) -/

/-- Whether x ranks above y (R187). -/
def ranksAbove (x y : Lane) : Bool :=
  (readW40 y).lt (readW40 x) || (readW40 y = .nan && readW40 x ≠ .nan)

/-- The output scale of SDADD (R189). -/
def sdAddScale (ca cb : Nat) : Nat := if ca = 255 ∨ cb = 255 then 255 else min (max ca cb + 2) 255
/-- The output scale of SDMUL (R189). -/
def sdMulScale (ca cb : Nat) : Nat :=
  if ca = 255 ∨ cb = 255 then 255 else if ca + cb < 125 then 0 else min (ca + cb - 125) 255

/-- The comparison of SDCMP on W40 values (R190, R192). -/
def cmpLane (a b : Lane) : Lane :=
  let x := readW40 a
  let y := readW40 b
  if x = .nan ∨ y = .nan then 2
  else if x.lt y then intOut (-1) false else if y.lt x then 1 else 0

/-- The value of digits given as their sum times 4^12, with a scale (R161, R192). A sum that needs more than 29 significant bits has
no exact W40 value and R192 names no rounding: it is rounded RNE, whatever MOD.RND holds (DESIGN CHOICE, log entry 75). -/
def sdValue (sum : Int) (c : Nat) : Lane :=
  if c = 255 then wNan else (Dy.mk sum ((c : Int) - 127 - 24)).round .rne false

/-- cell_eval: the firing that CELL and CELL3 reproduce, lane 0 alone valid. The answer is the cause of an error token the
cell emits, if it does, and lane 0 of its payload (R28, R76, R192, R193). -/
def cellEval (op : Nat) (m : BitVec 24) (a b c : Lane) : Option Byte × Lane :=
  let one := fun v : Lane => valueTok 1 false fun _ => v
  match laneOp op m a b c with
  | some v => (none, v)
  | none =>
    match laneTok op m (one a) (one b) with
    | some t => (none, t.lane 0)
    | none =>
      let scale := fun l : Lane => l.toNat % 256
      (none, match op with
        | 0x28 => fadd b a (modRnd m)
        | 0x31 => fadd b a (modRnd m)
        | 0x29 => fmax a b
        | 0x2A => intOut (sint32 b + 1) (modSat m)
        | 0x2B => intOut (sint32 a + sint32 c * genStep m) (modSat m)
        | 0x2D => b
        | 0x32 =>
          if c.getLsbD 39 then c
          else if (readW40 b).lt (readW40 a) then c ||| 0x8000000000 else c + 1
        | 0x33 => if ranksAbove a b then 1 else 0
        | 0x34 => if ranksAbove a b then 1 else 0
        | 0x38 => BitVec.ofNat 40 (sdAddScale (scale a) (scale b))
        | 0x39 => BitVec.ofNat 40 (sdMulScale (scale a) (scale b))
        | 0x3A => cmpLane a b
        | 0x3B => a
        | 0x3C => sdValue (sint32 a) (scale b)
        | _ => 0)

/-- The register result of CELL and CELL3 (R76, R77). -/
def cellResult (r : Option Byte × Lane) : Word :=
  match r.1 with
  | some cause => BitVec.ofNat 64 (2 ^ 63 + cause.toNat * 2 ^ 40 + r.2.toNat)
  | none => r.2.setWidth 64

end Sys2Proof.Machine
end

