-- ==== Sys2Proof/Machine/Fabric.lean ====
section
/-! DEFINITION. The fabric: places, frames, stages, routes, the firing of an element and what it does to the fabric
(05 R81-R104; 07 R131-R142). -/

namespace Sys2Proof.Machine

/-! ### Places -/

/-- The key of a region (R82). -/
def regionKey (c : CoreIx) (r : Fin 16) : Nat := c.val * 16 + r.val
/-- The key of a site (R82). -/
def siteKey (c : CoreIx) (r : Fin 16) (i : Fin 16) : Nat := regionKey c r * 16 + i.val
/-- The key of one plane of a site. -/
def eltKey (e : Elt) : Nat := siteKey e.core e.region e.site * 4 + e.plane.val
/-- The place a key names. -/
def eltOf (k : Nat) : Elt := ⟨Fin.ofNat 256 (k / 1024), Fin.ofNat 16 (k / 64), Fin.ofNat 16 (k / 4), Fin.ofNat 4 k⟩

/-- One plane of a site. -/
def State.site (s : State) (e : Elt) : SitePlane := s.sites.get .empty (eltKey e)
/-- The module with one plane of a site replaced. -/
def State.setSite (s : State) (e : Elt) (x : SitePlane) : State := { s with sites := s.sites.set .empty (eltKey e) x }
/-- A region. -/
def State.region (s : State) (c : CoreIx) (r : Fin 16) : Region := s.regions.get .reset (regionKey c r)
/-- The module with a region replaced. -/
def State.setRegion (s : State) (c : CoreIx) (r : Fin 16) (x : Region) : State :=
  { s with regions := s.regions.set .reset (regionKey c r) x }
/-- A plane of a region. -/
def Region.plane (x : Region) (p : Nat) : Plane := x.planes.get .none p
/-- The region with a plane replaced. -/
def Region.setPlane (x : Region) (p : Nat) (q : Plane) : Region := { x with planes := x.planes.set .none p q }
/-- The plane an element's site runs in. -/
def State.planeOf (s : State) (e : Elt) : Plane := (s.region e.core e.region).plane e.plane.val
/-- A graph. -/
def State.graph (s : State) (g : GraphIx) : Graph := s.graphs.get .free g.val
/-- The module with a graph replaced. -/
def State.setGraph (s : State) (g : GraphIx) (x : Graph) : State := { s with graphs := s.graphs.set .free g.val x }
/-- The module with a graph changed. -/
def State.updGraph (s : State) (g : GraphIx) (f : Graph → Graph) : State := s.setGraph g (f (s.graph g))
/-- The graph that owns an element's plane. -/
def State.ownerOf (s : State) (e : Elt) : Option GraphIx := (s.planeOf e).owner

/-- Lane 1 of an error token: where the element is (R101). -/
def locBits (e : Elt) (page : Nat) : Nat :=
  e.plane.val + 4 * e.site.val + 64 * e.region.val + 1024 * e.core.val + 2 ^ 18 * (page % 64)
/-- The place of an element as an error token names it. -/
def State.locOf (s : State) (e : Elt) : Nat := locBits e (s.planeOf e).page

/-! ### Frames (R133-R138) -/

/-- A field of a frame. -/
def fld (f : FrameBits) (lo n : Nat) : Nat := f.toNat / 2 ^ lo % 2 ^ n
/-- OPC (R133). -/
def opcOf (f : FrameBits) : Nat := fld f 232 8
/-- MOD of a compute frame, RMOD of a switch frame (R134, R138). -/
def modOf (f : FrameBits) : BitVec 24 := BitVec.ofNat 24 (fld f 208 24)
/-- RLVL (R133). -/
def rlvlOf (f : FrameBits) : Nat := fld f 194 3
/-- The signal face (R133). -/
def faceOf (f : FrameBits) : Nat := fld f 174 20
/-- IMM (R134, R137, R141). -/
def immOf (f : FrameBits) : Lane := BitVec.ofNat 40 (fld f 0 40)
/-- The source of operand 0, 1 or 2 (R134). -/
def srcOf (f : FrameBits) (i : Nat) : Nat := fld f (206 - 2 * i) 2
/-- DSEL (R134). -/
def dselOf (f : FrameBits) : Nat := fld f 197 5
/-- Whether a stop or D is a reset or marker of a level code (R98, R133): D always is, code 6 is D only. -/
def closesAt (t : Token) (lvl : Nat) : Bool := t.isDone || (t.isStop && lvl ≤ t.level)

/-- The operands a compute-cell opcode reads (R174-R191): A, B, C. -/
def cellReads (op : Nat) : List Nat :=
  match op with
  | 0x04 => [0, 1, 2] | 0x0D => [0, 1, 2] | 0x13 => [0, 1, 2] | 0x30 => [0, 1, 2]
  | 0x07 => [0] | 0x08 => [0] | 0x09 => [0] | 0x0A => [0] | 0x0E => [0]
  | 0x20 => [0] | 0x22 => [0] | 0x23 => [0] | 0x24 => [0] | 0x28 => [0] | 0x29 => [0] | 0x2A => [0]
  | 0x31 => [0] | 0x33 => [0] | 0x34 => [0] | 0x3B => [0] | 0x3C => [0]
  | _ => [0, 1]

/-! ### Stages and routes (R92, R93, R139, R140) -/

/-- A stage of a map of stages. -/
def stageAt (m : SMap Stage) (k : Nat) : Stage := m.get .empty k
/-- A token enters a stage. -/
def Stage.push (x : Stage) (t : Token) : Stage := { x with toks := x.toks ++ [t] }
/-- The head leaves a stage. -/
def Stage.pop (x : Stage) : Stage := { x with toks := x.toks.tail }
/-- The slot return that a stage drives at the end of a cycle (R93). -/
def Stage.drive (x : Stage) : Stage := { x with ret := x.toks.length < x.cap }

/-- The source that destination d of a site selects (R138, R139). -/
def SitePlane.select (x : SitePlane) (d : Nat) : Nat := match x.switch with
  | some f => fld f (102 + 4 * d) 4
  | none => 0
/-- The destinations that select a source (R140). -/
def SitePlane.dests (x : SitePlane) (src : Nat) : List Nat := (List.range 18).filter fun d => x.select d = src

/-- Whether port p reads the last link stage of its edge: its source is an incoming track that no other destination
selects (R92). The answer is the track. -/
def SitePlane.direct (x : SitePlane) (p : Nat) : Option Nat :=
  let c := x.select (8 + p)
  if 1 ≤ c ∧ c ≤ 8 ∧ x.dests c = [8 + p] then some (c - 1) else none

/-- The stage whose head port p shows (R92). -/
def SitePlane.portStage (x : SitePlane) (p : Nat) : Stage := match x.direct p with
  | some t => stageAt x.links t
  | none => stageAt x.ports p
/-- The head of port p. -/
def SitePlane.head (x : SitePlane) (p : Nat) : Option Token := (x.portStage p).toks.head?
/-- The site with the head of port p consumed. -/
def SitePlane.consume (x : SitePlane) (p : Nat) : SitePlane := match x.direct p with
  | some t => { x with links := x.links.set .empty t (stageAt x.links t).pop }
  | none => { x with ports := x.ports.set .empty p (stageAt x.ports p).pop }

/-- The neighbour over a direction and the incoming track of a token that leaves there; none at the region's edge
(R82, R139, R140). Direction 0 N, 1 E, 2 S, 3 W. -/
def neighbour (e : Elt) (d : Nat) : Option (Elt × Nat) :=
  let x := e.site.val % 4
  let y := e.site.val / 4
  let tr := d % 2
  match d / 2 with
  | 0 => if y = 0 then none else some ({ e with site := Fin.ofNat 16 (4 * (y - 1) + x) }, 4 + tr)
  | 1 => if x = 3 then none else some ({ e with site := Fin.ofNat 16 (4 * y + x + 1) }, 6 + tr)
  | 2 => if y = 3 then none else some ({ e with site := Fin.ofNat 16 (4 * (y + 1) + x) }, 0 + tr)
  | _ => if x = 0 then none else some ({ e with site := Fin.ofNat 16 (4 * y + x - 1) }, 2 + tr)

/-- Where a token that leaves by a destination arrives. Cuff stages 0-3 are in0-in3; 8-11 hold what leaves by out0-out3
where the stream switch has an element of its own after it (a clone's ORDER, the block dispatcher), 12-15 what waits for a
clone's SPLIT before in0-in3 (R228, R233, R236). -/
inductive Target where
  | link (e : Elt) (track : Nat)
  | port (e : Elt) (p : Nat)
  | cuff (e : Elt) (i : Nat)
  | gen (g : GraphIx) (n : Nat)          -- the input of a generator
  | scale (g : GraphIx) (n : Nat)        -- its scale stream (R275)
  deriving DecidableEq, Repr

/-- An output port. -/
def SitePlane.out (x : SitePlane) (o : Nat) : OutPort := x.outs.get .empty o
/-- The site with an output port replaced. -/
def SitePlane.setOut (x : SitePlane) (o : Nat) (q : OutPort) : SitePlane := { x with outs := x.outs.set .empty o q }

/-- The token that stands at a source of the site (R139). -/
def SitePlane.sourceTok (x : SitePlane) (src : Nat) : Option Token :=
  if 1 ≤ src ∧ src ≤ 8 then (stageAt x.links (src - 1)).toks.head?
  else if 9 ≤ src ∧ src ≤ 11 then (x.out (src - 9)).cur
  else if 12 ≤ src ∧ src ≤ 15 then (stageAt x.cuffs (src - 12)).toks.head?
  else none

/-- The destinations a source's token moves to; a track read by one port alone is not moved (R92). -/
def SitePlane.moveDests (x : SitePlane) (src : Nat) : List Nat :=
  let ds := x.dests src
  if 1 ≤ src ∧ src ≤ 8 then
    match ds with
    | [d] => if 8 ≤ d ∧ d ≤ 13 then [] else ds
    | _ => ds
  else ds

end Sys2Proof.Machine
end

