-- ==== Sys2Proof/Machine/Element.lean ====
section
/-! DEFINITION. What every element of a site does alike: its operands, the examination of its heads, error tokens, the
drain, and its signal face (05 R91, R95-R102; 06 R109; 07 R136). -/

namespace Sys2Proof.Machine

/-- A mask from a test of lanes. -/
def maskOf (f : Nat → Bool) : BitVec 16 := BitVec.ofNat 16 (((List.range 16).filter f).foldl (fun n i => n + 2 ^ i) 0)

/-- What a firing sees from beyond its site: lane 1 of its error tokens, the commit-window level, the delay registers, and
which of its outputs are free (R95, R101, R119). -/
structure Env where
  loc  : Nat
  win  : Nat
  dreg : SMap Lane
  free : List Nat
  badA : List Nat                      -- uncorrectable 8-byte words of the site's tile, or of a matrix node's A tile (R477)
  badB : List Nat                      -- those of a matrix node's B tile
  deriving DecidableEq, Repr

/-- The element, or the router element, of a plane. -/
def SitePlane.half (x : SitePlane) (r : Bool) : Half := if r then x.rout else x.elem
/-- One of the two replaced. -/
def SitePlane.setHalf (x : SitePlane) (r : Bool) (h : Half) : SitePlane :=
  if r then { x with rout := h } else { x with elem := h }

/-- The event flags after a token is emitted (R109). -/
def Face.note (f : Face) (rlvl : Nat) (t : Token) : Face :=
  if t.err then { f with err := true, any := true }
  else if t.isDone then { f with done := true, any := true }
  else if t.isStop then { f with mark := f.mark || decide (rlvl ≤ t.level), any := true }
  else { f with truth := t.valid 0 && decide (t.lane 0 ≠ 0), any := true }

/-- A token as an element writes it: reserved bits are zero always (R91, R104). -/
def SitePlane.put (x : SitePlane) (r : Bool) (o rlvl : Nat) (t : Token) : SitePlane :=
  let h := x.half r
  let h1 := { h with face := h.face.note rlvl t, parity := if t.isStop && o ≠ 2 then !h.parity else h.parity }
  (x.setHalf r h1).setOut o { x.out o with nxt := some t }

/-- The site with the heads of several ports consumed. -/
def SitePlane.eat (x : SitePlane) (ports : List Nat) : SitePlane := ports.foldl (fun y p => y.consume p) x

/-- The KIND fields and the read set of lane 0 of a shape mismatch (R101). -/
def shapeDetail (x : SitePlane) (ports : List Nat) : Nat :=
  ports.foldl (fun d p => d + (match x.head p with | some t => t.kind.val | none => 0) * 8 ^ (p % 3) + 512 * 2 ^ (p % 3)) 0

/-- Operand i of a compute frame: the head of its port, or a constant (R136). -/
def operandTok (x : SitePlane) (env : Env) (f : FrameBits) (i : Nat) : Token :=
  match srcOf f i with
  | 0 => (x.head i).getD doneTok
  | 1 => constTok (immOf f)
  | _ => constTok (env.dreg.get 0 (dselOf f))

/-- The causes whose detail holds an offending lane (R254, R305, R344). -/
def laneOf (cause : Byte) (detail : Nat) : Option Nat := if cause = 0x26 ∨ cause = 0x07 then some (detail % 16) else none

/-- The firing at fault as a fault record names it: an operand that is a constant counts as the value token it stands for (R136,
R413). -/
def originOf (x : SitePlane) (env : Env) (r : Bool) (ports : List Nat) (cause : Byte) (lane0 : Nat) : FaultInfo :=
  { FaultInfo.none with
      ocause := cause, loc := env.loc, firing := (x.half r).firing, lane := laneOf cause (lane0 / 256)
      opnd := [0, 1, 2].map fun i => match ports.find? (· % 3 = i) with
        | some p => ((x.head p).map (·.lane 0)).getD 0
        | none => match if r then none else x.comp with
          | some f => if srcOf f i = 0 then 0 else (operandTok x env f i).lane 0
          | none => 0
      kinds := [0, 1, 2].map fun i => match ports.find? (· % 3 = i) with
        | some p => ((x.head p).map (·.kind.val)).getD 0
        | none => 0
      tval := BitVec.ofNat 64 lane0 }

/-- The element emits an error token of its own and enters the drain state (R100-R102). -/
def SitePlane.fail (x : SitePlane) (env : Env) (r : Bool) (ports outs : List Nat) (rlvl : Nat) (cause : Byte)
    (detail : Nat) : SitePlane :=
  let l0 := cause.toNat + 256 * detail
  let y := x.put r (outs.headD 0) rlvl (errTok l0 env.loc)
  let z := y.setHalf r { y.half r with drain := some [], dOut := outs }
  { z with origins := originOf x env r ports cause l0 :: x.origins }

/-- An error token forwarded from a port (R100). -/
def SitePlane.forward (x : SitePlane) (r : Bool) (p : Nat) (outs : List Nat) (rlvl : Nat) (t : Token) : SitePlane :=
  let y := (x.consume p).put r (outs.headD 0) rlvl t
  y.setHalf r { y.half r with drain := some [], dOut := outs }

/-- What the heads of the read ports call for (R100). -/
inductive Look where
  | wait
  | go (h : Token)
  | done (x : SitePlane)

/-- The port whose head is an error token, the first in port order. -/
def SitePlane.errPort (x : SitePlane) (ports : List Nat) : Option (Nat × Token) :=
  ports.findSome? fun p => match x.head p with
    | some t => if t.err then some (p, t) else none
    | none => none

/-- The examination of R100: outs lists the element's outputs, its error output first. -/
def SitePlane.look (x : SitePlane) (env : Env) (r : Bool) (ports outs : List Nat) (rlvl : Nat) : Look :=
  let free := env.free.contains (outs.headD 0)
  match x.errPort ports with
  | some (p, t) => if free then .done (x.forward r p outs rlvl t) else .wait
  | none => match ports.mapM x.head with
    | none => .wait
    | some [] => .wait
    | some (h :: hs) =>
      if hs.all fun t => t.kind = h.kind then .go h
      else if free then .done (x.fail env r ports outs rlvl 1 (shapeDetail x ports)) else .wait

/-- One cycle of the drain: at most one token per port, up to its D; then one D on each output (R102, R206). The D's wait
for the ports of `gate`; the element resets when every port has consumed its D and every D has left. -/
def SitePlane.drainStep (x : SitePlane) (env : Env) (r : Bool) (ports gate : List Nat) (rlvl : Nat)
    (reset : SitePlane → SitePlane) : Option SitePlane :=
  match (x.half r).drain with
  | none => none
  | some got =>
    let now := ports.filter fun p => !got.contains p && (x.head p).isSome
    let ended := now.filter fun p => (x.head p).any (·.isDone)
    let got1 := got ++ ended
    let y := x.eat now
    let owed := (x.half r).dOut
    let send := if gate.all got1.contains then owed.filter env.free.contains else []
    let z := send.foldl (fun w o => w.put r o rlvl doneTok) y
    let owed1 := owed.filter fun o => !send.contains o
    if now.isEmpty && send.isEmpty && !(owed.isEmpty && ports.all got.contains) then none
    else if ports.all got1.contains && owed1.isEmpty then
      some (reset (z.setHalf r { z.half r with drain := none, dOut := [], skip := false, firing := 0, fired := true }))
    else some (z.setHalf r { z.half r with drain := some got1, dOut := owed1 })

/-- The firing ordinal starts anew after a marker of the commit window or D (R402, R413). -/
def SitePlane.windowMark (x : SitePlane) (env : Env) (r : Bool) (t : Token) : SitePlane :=
  if closesAt t env.win then x.setHalf r { x.half r with firing := 0, fired := true } else x

/-- The site after a firing: it counts, unless the count has just started anew. -/
def SitePlane.counted (x : SitePlane) (r : Bool) : SitePlane :=
  if (x.half r).fired then x else x.setHalf r { x.half r with fired := true, firing := (x.half r).firing + 1 }

/-- Whether an element's skip flag of this group ends at a stop it emits (R165). -/
def SitePlane.endSkip (x : SitePlane) (r : Bool) : SitePlane := x.setHalf r { x.half r with skip := false }

end Sys2Proof.Machine
end

