-- ==== Sys2Proof/Machine/Tiles.lean ====
section
/-! DEFINITION. Memory tiles: the stage ring and the tile element (12 R247-R251; 16 R303-R308). -/

namespace Sys2Proof.Machine

/-- DEPTH of a tile frame (R137). -/
def tileDepth (f : FrameBits) : Nat := fld f 228 4
/-- BUFSZ of a tile frame, in bytes (R137). -/
def tileBuf (f : FrameBits) : Nat := fld f 216 12 * 64
/-- BASE of a tile frame, in bytes (R137). -/
def tileBase (f : FrameBits) : Nat := fld f 206 10 * 64
/-- CEN of a tile frame (R137). -/
def tileCen (f : FrameBits) : Bool := f.getLsbD 205
/-- CSITE of a tile frame (R137). -/
def tileCsite (f : FrameBits) : Fin 16 := Fin.ofNat 16 (fld f 201 4)
/-- SZ: slots of 8 bytes (R303). -/
def tileSlot (f : FrameBits) : Bool := f.getLsbD 0
/-- DIR of SPBUF: drain (R303). -/
def tileDrains (f : FrameBits) : Bool := f.getLsbD 1
/-- SAT of AADD (R303). -/
def tileSat (f : FrameBits) : Bool := f.getLsbD 2
/-- The offset of a stage (R248). -/
def stageOff (f : FrameBits) (i : Nat) : Nat := tileBase f + i * tileBuf f

/-- The status byte of a stage (R248). -/
def Tile.status (t : Tile) (i : Nat) : Byte := t.ring.get 0 i
/-- A status byte written. -/
def Tile.setStatus (t : Tile) (i : Nat) (b : Byte) : Tile := { t with ring := t.ring.set 0 i b }
/-- The status FILLING under an owner (R248). -/
def filling (owner : Nat) : Byte := BitVec.ofNat 8 (0x20 + owner)
/-- The status DRAINING under an owner (R248). -/
def draining (owner : Nat) : Byte := BitVec.ofNat 8 (0xC0 + owner)
/-- The status FULL, held by no one. -/
abbrev full : Byte := 0x80

/-- The producer acquires stage pp where it is EMPTY (R248). -/
def Tile.acquireP (t : Tile) (owner : Nat) : Option Tile :=
  if t.status t.pp = 0 then some (t.setStatus t.pp (filling owner)) else none
/-- The consumer acquires stage cp where it is FULL (R248). -/
def Tile.acquireC (t : Tile) (owner : Nat) : Option Tile :=
  if t.status t.cp = full then some (t.setStatus t.cp (draining owner)) else none
/-- The owner releases stage pp FULL; a release by another is refused (R248). -/
def Tile.releaseP (t : Tile) (f : FrameBits) (owner : Nat) : Option Tile :=
  if t.status t.pp = filling owner then some { t.setStatus t.pp full with pp := (t.pp + 1) % max (tileDepth f) 1 } else none
/-- The owner releases stage cp EMPTY (R248). -/
def Tile.releaseC (t : Tile) (f : FrameBits) (owner : Nat) : Option Tile :=
  if t.status t.cp = draining owner then some { t.setStatus t.cp 0 with cp := (t.cp + 1) % max (tileDepth f) 1 } else none

/-- What a firing of a tile element changes: its site, the tile's bytes, the causes it raises, the stages it released FULL. -/
structure TileFire where
  x      : SitePlane
  mem    : SMap Byte
  faults : List Byte
  filled : List Nat
  wrote  : List (Nat × Nat)            -- offsets and lengths of the bytes written

/-- A firing that leaves the tile's bytes. -/
def TileFire.of (x : SitePlane) (mem : SMap Byte) : TileFire := ⟨x, mem, [], [], []⟩

/-- Whether bytes of a tile touch an uncorrectable word (R477). -/
def hitsBad (bad : List Nat) (o n : Nat) : Bool := bad.any fun w => decide (8 * w < o + n ∧ o < 8 * w + 8)

/-- The tile element's state replaced. -/
def SitePlane.setTile (x : SitePlane) (t : Tile) : SitePlane := { x with tile := t }
/-- A tile after reset: every stage EMPTY (R248); an SPFIFO keeps its ring (R307). -/
def SitePlane.resetTile (x : SitePlane) : SitePlane := x.setTile .reset

/-- A word or slot of the tile as a lane (R303). -/
def tileRead (mem : SMap Byte) (slot : Bool) (a : Nat) : Lane :=
  if slot then BitVec.ofNat 40 (leNat (mem.getN 0 a 5)) else (BitVec.ofNat 32 (leNat (mem.getN 0 a 4))).signExtend 40
/-- A lane written as a word or slot of the tile (R303). -/
def tileWrite (mem : SMap Byte) (slot : Bool) (a : Nat) (v : Lane) : SMap Byte :=
  if slot then mem.setN 0 a (leBytes 8 v.toNat) else mem.setN 0 a (leBytes 4 (v.toNat % 2 ^ 32))

/-- The ports of a tile opcode (R304). -/
def tilePorts (op : Nat) : List Nat :=
  match op with
  | 1 => [0] | 3 => [0] | 4 => [0] | 12 => [0, 1, 2] | _ => [0, 1]

/-- The new value of an atomic update (R308). -/
def tileUpdate (op : Nat) (f : FrameBits) (old b c : Lane) : Lane :=
  match op with
  | 8 => intOut (sint32 old + sint32 b) (tileSat f)
  | 9 => match readW40 old, readW40 b with
    | .fin s m e, .fin t n f => ((dy s m e).add (dy t n f)).round .rne false
    | _, _ => fadd old b .rne
  | 10 => if tileSlot f then fmax old b else intOut (max (sint32 old) (sint32 b)) false
  | 12 => if (if tileSlot f then old = c else old.setWidth 32 = c.setWidth 32) then b else old
  | _ => b

/-- The lanes of an access in lane order: what is read, and the bytes afterwards (R304, R308). -/
def tileLanes (op : Nat) (f : FrameBits) (a b c : Token) : List Nat → SMap Byte → List (Nat × Lane) × SMap Byte
  | [], mem => ([], mem)
  | i :: r, mem =>
    let o := (sint32 (a.lane i)).toNat
    let old := tileRead mem (tileSlot f) o
    let mem1 := match op with
      | 1 => mem
      | 2 => tileWrite mem (tileSlot f) o (b.lane i)
      | _ => tileWrite mem (tileSlot f) o (tileUpdate op f old (b.lane i) (c.lane i))
    let (l, m) := tileLanes op f a b c r mem1
    ((i, old) :: l, m)

/-- Whether an offset lies in the extent and is aligned (R305). -/
def tileOk (f : FrameBits) (o : Int) : Bool :=
  decide ((tileBase f : Int) ≤ o ∧ o < (tileBase f + tileDepth f * tileBuf f : Nat)) && o % (if tileSlot f then 8 else 4) = 0

/-- A value at every port of SPRD, SPWR or an atomic (R304, R305, R308). -/
def tileAccess (op : Nat) (f : FrameBits) (env : Env) (x : SitePlane) (mem : SMap Byte) : TileFire :=
  let ports := tilePorts op
  let t := fun p => (x.head p).getD doneTok
  let mask := ports.foldl (fun m p => m &&& (t p).mask) 0xFFFF
  let lanes := (List.range 16).filter fun i => mask.getLsbD i
  match lanes.find? fun i => !tileOk f (sint32 ((t 0).lane i)) with
  | some i => .of (x.fail env false ports [0] (rlvlOf f) 0x26 i) mem
  | none =>
  match if op = 2 then none else lanes.find? fun i => hitsBad env.badA (sint32 ((t 0).lane i)).toNat (if tileSlot f then 8 else 4) with
  | some i => .of (x.fail env false ports [0] (rlvlOf f) 0xB0 i) mem
  | none =>
    let (vs, m1) := tileLanes op f (t 0) (t 1) (t 2) lanes mem
    let y := x.eat ports
    if op = 2 then ⟨y, m1, [], [], lanes.map fun i => ((sint32 ((t 0).lane i)).toNat, if tileSlot f then 8 else 4)⟩
    else .of (y.put false 0 (rlvlOf f) (valueTok mask false fun i => ((vs.find? (·.1 = i)).map (·.2)).getD 0)) m1

/-- A token as a stage of SPFIFO holds it: 80 payload bytes, MASK, control bits [7:0] (R307). -/
def tokenBytes (t : Token) : List Byte :=
  (List.range 16).flatMap (fun i => leBytes 5 (t.lane i).toNat) ++ leBytes 2 t.mask.toNat ++
    leBytes 1 (t.kind.val + 8 * b2n t.err + 16 * b2n t.fill)
/-- The token that 83 bytes hold. -/
def tokenOf (bs : List Byte) : Token :=
  let c := leNat (bs.drop 82)
  ⟨Fin.ofNat 8 c, c / 8 % 2 = 1, c / 16 % 2 = 1, BitVec.ofNat 16 (leNat ((bs.drop 80).take 2)),
    lanesOf fun i => BitVec.ofNat 40 (leNat ((bs.drop (5 * i)).take 5))⟩

/-- Whether a tile's element has no port bound: its frame configures only the stage ring (R396). -/
def SitePlane.portless (x : SitePlane) : Bool := [8, 9, 10].all (fun d => x.select d = 0) && (x.dests 9).isEmpty

/-- SPFIFO: a token leaves the ring, a token enters it (R307); one without a port never fires (R396). -/
def fireFifo (f : FrameBits) (env : Env) (x : SitePlane) (mem : SMap Byte) : Option TileFire :=
  let t := x.tile
  let depth := max (tileDepth f) 1
  if x.portless then none else
  let go := t.status t.cp = full && env.free.contains 0
  let y := if go then
      let tok := tokenOf (mem.getN 0 (stageOff f t.cp) 83)
      (x.setTile { t.setStatus t.cp 0 with cp := (t.cp + 1) % depth }).put false 0 (rlvlOf f) tok
    else x
  if go && hitsBad env.badA (stageOff f t.cp) 83 then some (.of (x.fail env false [0] [0] (rlvlOf f) 0xB0 0) mem)
  else match if t.status t.pp = 0 then x.head 0 else none with
  | some a =>
    let u := y.tile
    let z := (y.eat [0]).setTile { u.setStatus u.pp full with pp := (u.pp + 1) % depth }
    some ⟨z.windowMark env false a, mem.setN 0 (stageOff f t.pp) (tokenBytes a), [], [], [(stageOff f t.pp, 83)]⟩
  | none => if go then some (.of y mem) else none

/-- SPBUF, DIR 0: a value token written into stage pp, which the first one after a release acquires (R306, R250). -/
def bufFill (f : FrameBits) (x : SitePlane) (site : Nat) (a : Token) (mem : SMap Byte) : Option TileFire :=
  let t := x.tile
  match if t.pos ≠ 0 then some t else t.acquireP site with
  | none => none
  | some u =>
    let off := stageOff f u.pp
    let m1 := (List.range 16).foldl (fun m i =>
      if u.pos + 8 * i + 8 ≤ tileBuf f then tileWrite m true (off + u.pos + 8 * i) (a.lane i) else m) mem
    let excess := decide (u.pos ≤ tileBuf f ∧ tileBuf f < u.pos + 128)
    some ⟨(x.eat [0]).setTile { u with pos := u.pos + 128 }, m1, if excess then [0x2E] else [], [],
      [(off + u.pos, min 128 (tileBuf f - u.pos))]⟩

/-- SPBUF, DIR 1: the next token of the stage it drains, or the S0 that ends it with the release, refused with 0x2D where the
stage is not its own (R248, R306). -/
def bufDrain (f : FrameBits) (env : Env) (x : SitePlane) (site : Nat) (mem : SMap Byte) : TileFire :=
  let t := x.tile
  let slots := tileBuf f / 8
  if 16 * t.pos < slots then
    let cnt := min 16 (slots - 16 * t.pos)
    let off := stageOff f t.cp + 128 * t.pos
    if hitsBad env.badA off (8 * cnt) then .of (x.fail env false [0] [0] (rlvlOf f) 0xB0 0) mem
    else
    let tok := valueTok (BitVec.ofNat 16 (2 ^ cnt - 1)) false fun i => tileRead mem true (off + 8 * i)
    .of ((x.setTile { t with pos := t.pos + 1 }).put false 0 (rlvlOf f) tok) mem
  else
    let y := x.put false 0 (rlvlOf f) (stopTok 0)
    match t.releaseC f site with
    | some u => .of (y.setTile { u with pos := 0 }) mem
    | none => ⟨y.setTile { t with pos := 0 }, mem, [0x2D], [], []⟩

/-- A stop or D at a tile element; SPBUF releases the stage that values before it filled, refused with 0x2D where the stage
is not its own (R99, R248, R306). -/
def tileStop (op : Nat) (f : FrameBits) (env : Env) (x : SitePlane) (site : Nat) (h : Token) (mem : SMap Byte) : TileFire :=
  let t := x.tile
  let held := op = 3 && !tileDrains f && t.pos ≠ 0
  let freed := if held then t.releaseP f site else none
  let u := { freed.getD t with pos := 0 }
  let y := (((x.setTile u).eat (tilePorts op)).put false 0 (rlvlOf f) h.bare).windowMark env false h
  ⟨if closesAt h (rlvlOf f) then y.resetTile else y, mem, if held && freed.isNone then [0x2D] else [],
    if freed.isSome then [t.pp] else [], []⟩

/-- One firing of a tile element, by its opcode (R304-R308). -/
def tileStep (op : Nat) (f : FrameBits) (env : Env) (site : Nat) (x : SitePlane) (mem : SMap Byte) : Option TileFire :=
  let ports := tilePorts op
  if op = 4 then fireFifo f env x mem
  else if x.elem.drain.isSome then
    (x.drainStep env false ports ports (rlvlOf f) SitePlane.resetTile).map fun y => .of y mem
  else if op = 3 && tileDrains f && x.tile.pos ≠ 0 then
    if env.free.contains 0 then some (bufDrain f env x site mem) else none
  else match x.look env false ports [0] (rlvlOf f) with
    | .wait => none
    | .done y => some (.of y mem)
    | .go h =>
      if !env.free.contains 0 then none
      else if h.kind ≠ 0 then some (tileStop op f env x site h mem)
      else if op = 3 then
        if tileDrains f then (x.tile.acquireC site).map fun u =>
          bufDrain f env ((x.eat [0]).setTile u) site mem
        else bufFill f x site h mem
      else some (tileAccess op f env x mem)

/-- A transfer from the memory edge into stage pp, whole: none where the stage is not EMPTY (R248, R250, R314). -/
def tileTransferIn (f : FrameBits) (x : SitePlane) (bs : List Byte) (mem : SMap Byte) : Option TileFire :=
  match x.tile.acquireP 16 with
  | none => none
  | some t =>
    let padded := bs ++ List.replicate ((64 - bs.length % 64) % 64) (0 : Byte)
    let m1 := mem.setN 0 (stageOff f t.pp) (padded.take (tileBuf f))
    let u := (t.releaseP f 16).getD t
    some ⟨x.setTile u, m1, if tileBuf f < padded.length then [0x2E] else [], [t.pp],
      [(stageOff f t.pp, min padded.length (tileBuf f))]⟩

/-- The stage token of a stage (R249). -/
def stageToken (f : FrameBits) (i : Nat) : Token :=
  valueTok 3 false fun l => if l = 0 then intOut i false else intOut (stageOff f i) false

end Sys2Proof.Machine
end

