-- ==== Sys2Proof/Machine/GenOps.lean ====
section
/-! DEFINITION. What every address generator does alike: its frame, its translations, loads and stores through its pocket,
its tokens, its faults (07 R141, R142; 12 R252-R265; 16 R309-R312; 23 R400-R406). -/

namespace Sys2Proof.Machine

/-! ### Frame fields (R141, R142) -/

def gFmt (f : FrameBits) : Nat := fld f 227 5
def gOvf (f : FrameBits) : Bool := f.getLsbD 226
def gClass (f : FrameBits) : Nat := fld f 224 2
def gChain (f : FrameBits) : Nat := fld f 218 6
def gIen (f : FrameBits) : Bool := f.getLsbD 217
def gIpage (f : FrameBits) : Nat := fld f 211 6
def gIport (f : FrameBits) : Nat := fld f 209 2
def gOen (f : FrameBits) : Bool := f.getLsbD 208
def gOpage (f : FrameBits) : Nat := fld f 202 6
def gOport (f : FrameBits) : Nat := fld f 200 2
def gNest (f : FrameBits) : Nat := fld f 197 3
def gBase (f : FrameBits) : Nat := fld f 121 52
def gSeq (f : FrameBits) : Nat := fld f 109 12
def gPred (f : FrameBits) : Nat := fld f 97 12
def gSucc (f : FrameBits) : Nat := fld f 85 12
def gImm (f : FrameBits) (lo n : Nat) : Nat := fld f lo n
/-- TDST of AFFLD and ROWG (R314). -/
def gTdst (f : FrameBits) : Bool := (opcOf f = 1 || opcOf f = 5) && f.getLsbD 10
/-- TSITE (R314). -/
def gTsite (f : FrameBits) : Nat := fld f 6 4
/-- TPAGE (R314). -/
def gTpage (f : FrameBits) : Nat := fld f 0 6

/-- CAM (R345). -/
def camNo (f : FrameBits) : Nat := fld f 0 4

/-- Part 0 of a generator. -/
def Gen.f (q : Gen) : FrameBits := q.parts.get 0 0
/-- Whether frames are those of AFFST, whose nest stands ready for a stream whenever none is in progress (R313). -/
def storeNest (ps : SMap FrameBits) : Bool := opcOf (ps.get 0 0) = 0x02
/-- Part 3 of a generator. -/
def Gen.p3 (q : Gen) : FrameBits := q.parts.get 0 3
/-- COUNT of nest level l (R142). -/
def Gen.count (q : Gen) (l : Nat) : Nat := fld (q.parts.get 0 (1 + l / 3)) (240 - 80 * (l % 3) - 32) 32
/-- STRIDE of nest level l (R142). -/
def Gen.stride (q : Gen) (l : Nat) : Int := signedField (fld (q.parts.get 0 (1 + l / 3)) (160 - 80 * (l % 3)) 48) 48
/-- Its storage format. -/
def Gen.fmt (q : Gen) : FmtKind := fmtOf (gFmt q.f)
/-- The page a generator's place in the graph is named by: of its tile, else of its input, else of its output (R229, R454). -/
def Gen.page (q : Gen) : Nat :=
  if gTdst q.f then gTpage q.f else if gIen q.f then gIpage q.f else if gOen q.f then gOpage q.f else 0

/-- A generator of a graph. -/
def Graph.genOf (x : Graph) (n : Nat) : Gen := x.gens.get .none n
/-- The graph with a generator replaced. -/
def Graph.setGen (x : Graph) (n : Nat) (q : Gen) : Graph := { x with gens := x.gens.set .none n q }
/-- A generator. -/
def State.gen (s : State) (g : GenAt) : Gen := (s.graph g.graph).genOf g.gen.val
/-- The module with a generator changed. -/
def State.updGen (s : State) (g : GenAt) (f : Gen → Gen) : State :=
  s.updGraph g.graph fun x => x.setGen g.gen.val (f (x.genOf g.gen.val))

/-- The region that holds a page of a graph. -/
def Graph.place (x : Graph) (page : Nat) : Option (CoreIx × Fin 16) :=
  (x.pages.find? fun p => p.1 = page).map fun p => (p.2.1, p.2.2)

/-- The plane of a page that is ACTIVE and owned by the graph. -/
def State.activePlane (s : State) (g : GraphIx) (c : CoreIx) (r : Fin 16) : Option (Fin 4) :=
  [0, 1, 2, 3].find? fun p => let q := (s.region c r).plane p.val; q.st = .active && q.owner = some g

/-- The page that a generator's part 0 names; a generator that names none is on the graph's lowest page (R229, R454). -/
def Graph.pageOf (x : Graph) (q : Gen) : Nat :=
  if gIen q.f || gOen q.f || gTdst q.f then q.page else match x.pages.head? with
    | some p => p.1
    | none => 0

/-- The port site of a page on the plane that holds the same image as the plane of e: the plane of the same number, or, where
pages of one image were placed on planes of different numbers, the lowest that does; none where the graph owns none (R85,
R227, R454). -/
def State.peer (s : State) (g : GraphIx) (page : Nat) (e : Elt) : Option Elt :=
  ((s.graph g).place page).bind fun p =>
    let r := s.region p.1 p.2
    let mine := fun (i : Fin 4) => (r.plane i.val).owner = some g
    let same := fun (i : Fin 4) => mine i && (r.plane i.val).img = (s.planeOf e).img
    let i := if same e.plane then e.plane else (([0, 1, 2, 3] : List (Fin 4)).find? same).getD e.plane
    if mine i then some ⟨p.1, p.2, 15, i⟩ else none

/-- The port site of the page that a generator is named by, on the plane whose frames it runs with. -/
def Graph.genElt (x : Graph) (q : Gen) : Option Elt := (x.place (x.pageOf q)).map fun p => ⟨p.1, p.2, 15, q.plane⟩

/-- The port site of a page on the plane that a generator's streams to it are bound in (R228, R454). -/
def State.genPeer (s : State) (g : GraphIx) (q : Gen) (page : Nat) : Option Elt := ((s.graph g).genElt q).bind (s.peer g page)

/-- The plane of a page that a generator's tiles stand in, while it is ACTIVE (R314, R318). -/
def State.genTilePlane (s : State) (g : GraphIx) (q : Gen) (page : Nat) : Option (Fin 4) :=
  (s.genPeer g q page).bind fun e => if (s.planeOf e).st = .active then some e.plane else none

/-- Where a generator stands as a fault names it: the page it names, at site 15 (R309, R413). -/
def State.genLoc (s : State) (g : GenAt) : Nat :=
  let page := (s.gen g).page
  match (s.graph g.graph).place page with
  | some (c, r) => locBits ⟨c, r, 15, (s.activePlane g.graph c r).getD 0⟩ page
  | none => 0

/-! ### Errors inside a firing -/

/-- How a generator's firing can fail: a cause with its address, or an error token with its cause and detail (R254, R309, R400). -/
inductive GErr where
  | fault (cause : Byte) (va : Nat)
  | bad (cause : Byte) (detail : Nat) (va : Nat := 0)
  deriving DecidableEq, Repr

/-- A computation of a generator: it threads the module's state and may fail. -/
abbrev GM := StateT State (Except GErr)

/-- A failure. -/
def gfail {α : Type} (e : GErr) : GM α := fun _ => .error e
/-- The generator's present state. -/
def ggen (g : GenAt) : GM Gen := fun s => .ok (s.gen g, s)
/-- The generator changed. -/
def gupd (g : GenAt) (f : Gen → Gen) : GM Unit := fun s => .ok ((), s.updGen g f)

/-! ### Translation (R255, R261-R265) -/

/-- The slice whose translation cache a generator consults (R264). -/
def Gen.slice (q : Gen) : Nat :=
  q.core.val * 8 + (if 32 ≤ q.place then (q.place - 32) / 2 else q.place / 8 * 2 + q.place % 8 / 4)

/-- The perimeter generator or push engine that a generator is bound to, over the module (R229, R257). -/
def Gen.unit (q : Gen) : Nat := q.core.val * 64 + q.place

/-- A translation entered in a slice's cache of 8 ways: it takes the place of the oldest of its set where that is full; the set is the
page number modulo 512 (R264, log entry 79). -/
def cacheIn (t : TlbEntry) (l : List TlbEntry) : List TlbEntry :=
  let set := l.filter fun e => e.page % 512 = t.page % 512
  match if set.length < 8 then none else set.getLast? with
  | some old => t :: l.erase old
  | none => t :: l

/-- The module with a translation at the head of a generator's micro-TLB of 32 entries, least recently used last (R264). -/
def State.recall (s : State) (q : Gen) (t : TlbEntry) : State :=
  { s with micro := s.micro.set [] q.unit ((t :: (s.micro.get [] q.unit).erase t).take 32) }

/-- A translation for a generator: its micro-TLB, the slice's translation cache, else a walk (R263, R264). An address outside the
range of R22 is index bounds (R254). -/
def gxlat (g : GenAt) (va : Nat) (kind : Access) : GM Nat := fun s =>
  let q := s.gen g
  let asid := (s.graph g.graph).asid
  let sl := q.slice
  let check := fun (t : TlbEntry) (s1 : State) => match permFabric t.leaf kind with
    | some c => Except.error (GErr.fault c va)
    | none => Except.ok (t.pa va, s1)
  if 2 ^ 52 ≤ va then .error (.bad 0x26 0 va)
  else match (s.micro.get [] q.unit).find? fun t => t.hits asid va with
  | some t => check t (s.recall q t)
  | none => match (s.tcs.get [] sl).find? fun t => t.hits asid va with
    | some t => check t (s.recall q t)
    | none => match s.walk asid va with
      | .fault c => .error (.fault c va)
      | .leaf lvl p =>
        let t := mkTlb asid va lvl p
        check t { s.recall q t with tcs := s.tcs.set [] sl (cacheIn t (s.tcs.get [] sl)) }

/-- The physical addresses of n bytes, page by page. -/
def gspan (g : GenAt) (kind : Access) : Nat → Nat → Nat → GM (List Nat)
  | 0, _, _ => pure []
  | fuel + 1, va, n =>
    if n = 0 then pure []
    else do
      let pa ← gxlat g va kind
      let m := min n (65536 - va % 65536)
      let rest ← gspan g kind fuel (va + m) (n - m)
      pure (addrs pa m ++ rest)

/-- The physical addresses of an access. -/
def gpas (g : GenAt) (va n : Nat) (kind : Access) : GM (List Nat) := gspan g kind (n / 65536 + 2) va n

/-- n bytes loaded from a virtual address (R263, R464, R477). -/
def gread (g : GenAt) (va n : Nat) : GM (List Byte) := do
  let pas ← gpas g va n .load
  fun s => match s.undeliverables pas with
    | some c => .error (.fault c va)
    | none => .ok (if isBlock pas then List.replicate n 0 else s.bytesAt pas, s)

/-- n bytes loaded as a number. -/
def gnat (g : GenAt) (va n : Nat) : GM Nat := do return leNat (← gread g va n)

/-! ### Pockets (R403-R405) -/

/-- The bytes an entry takes of its pocket (R403). -/
def PocketEntry.size (e : PocketEntry) : Nat :=
  match e.kind with
  | .masked _ => 16
  | .camera _ _ _ _ _ x => 8 + 8 * ((16 + 5 * x.length + 7) / 8)
  | _ => 8 + (e.data.length + 7) / 8 * 8

/-- The bytes a generator's pocket holds. -/
def Graph.pocketBytes (x : Graph) (n : Nat) : Nat :=
  ((x.pocket.filter fun e => e.gen = n).map PocketEntry.size).foldl (· + ·) 0

/-- A window that is not replayable any more (R405). -/
def Graph.kill (x : Graph) (w : Nat) : Graph := if x.dead.contains w then x else { x with dead := w :: x.dead }

/-- The lowest window that has not ended, over the generators that have frames on an ACTIVE plane (R402). -/
def Graph.lowWin (x : Graph) : Nat :=
  let ws := (x.gens.filter fun q => !q.2.parts.isEmpty).map fun q => q.2.win
  ws.foldl min (ws.headD 0)

/-- The bytes that entries take in the replay log: 96 a token; the choices of a window packed 64 to 8 bytes (R406). -/
def logSize (l : List LogEntry) : Nat :=
  let choices := l.filterMap fun e => match e.what with
    | .choice _ => some e.win
    | _ => none
  let packed := (choices.eraseDups.map fun w => 8 * ((choices.count w + 63) / 64)).foldl (· + ·) 0
  (l.map fun e => match e.what with
    | .token _ _ => 96
    | .state n => n
    | .spoiled n => n
    | .choice _ => 0).foldl (· + ·) packed

/-- Entries made in the replay log of 256 KiB; what does not fit overflows it (R405, R406). -/
def Graph.log (x : Graph) (w : Nat) (l : List Logged) : Graph :=
  let all := x.logged ++ l.map fun k => ⟨w, k⟩
  if l.isEmpty then x else if 262144 < logSize all then x.kill w else { x with logged := all }

/-- The chains that a graph's generators use, ascending (R444). -/
def Graph.chainsUsed (x : Graph) : List Nat :=
  let parts := x.gens.flatMap fun (q : Nat × Gen) => q.2.frames.filter fun (f : Nat × FrameBits) => f.1 % 4 = 0
  (List.range 64).filter fun c => parts.any fun (f : Nat × FrameBits) => gClass f.2 = 2 && gChain f.2 = c

/-! ### Windows (R402, R406) -/

/-- A generator opens its present window: its loop counters are logged, and by the first of the graph the chains. -/
def Graph.openWin (x : Graph) (n : Nat) : Graph :=
  let q := x.genOf n
  if q.opened then x
  else
    let w := q.win
    let x1 := x.setGen n { q with opened := true, snaps := ⟨w, q.loop, q.on, q.frameNo, q.hot⟩ :: q.snaps.filter (·.win ≠ w) }
    if x.logs.any (·.1 = w) then x1.log w [.state 64]
    else ({ x1 with logs := (w, x.chains, []) :: x1.logs } : Graph).log w (.state 64 :: x.chainsUsed.map fun _ => .state 64)

/-- A generator passes a marker of its window: the window ends for it (R402). -/
def Gen.passWin (q : Gen) (t : Token) (win : Nat) : Gen :=
  if closesAt t win then { q with win := q.win + 1, opened := false, half := { q.half with firing := 0 } } else q

/-! ### Tokens in and out -/

/-- A token to be delivered, ready at once or once its reply has come (R253). -/
def Gen.push (q : Gen) (t : Token) (ready : Bool) : Gen := { q with line := q.line ++ [.of t ready] }
/-- Requests outstanding. -/
def Gen.outstanding (q : Gen) : Nat := (q.line.filter fun i => !i.ready).length
/-- Whether the generator may issue another request (R253). -/
def Gen.mayIssue (q : Gen) : Bool := q.line.length < 64

/-- The head of the input consumed: the window is open, the firing counts, a marker ends the window. -/
def gtake (g : GenAt) : GM Unit := fun s =>
  let n := g.gen.val
  let x := (s.graph g.graph).openWin n
  let q := x.genOf n
  match q.inq.toks with
  | [] => .ok ((), s)
  | t :: _ =>
    let q1 := { q with inq := q.inq.pop, half := { q.half with firing := q.half.firing + 1 } }
    let q2 := q1.passWin t x.win
    let q3 := if t.isDone then
        { q2 with fin := q2.fin || !gOen q.f, half := if gOen q.f then q2.half else { q2.half with face := { q2.half.face with done := true } } }
      else q2
    .ok ((), s.setGraph g.graph (x.setGen n q3))

/-- The generator's window is open from here on (R402). -/
def gopen (g : GenAt) : GM Unit := fun s => .ok ((), s.updGraph g.graph fun x => x.openWin g.gen.val)

/-- A token appended to the output in its place. -/
def gemit (g : GenAt) (t : Token) : GM Unit := gupd g fun q => q.push t true
/-- A token whose data have been requested: it leaves once the reply has come. -/
def gload (g : GenAt) (t : Token) : GM Unit := gupd g fun q => q.push t false

/-- A fault of the generator, before it is raised: its place, window, counters and operands (R413). -/
def State.genFault (s : State) (g : GenAt) (cause : Byte) (addr : Nat) : FaultInfo :=
  let q := s.gen g
  let a := q.part.first.orElse fun _ => q.inq.toks.head?
  { FaultInfo.none with
      cause := cause, ocause := cause, loc := s.genLoc g, gen := some g.gen.val, window := q.win, loop := q.loop,
      addr := addr, firing := q.half.firing
      opnd := [(a.map (·.lane 0)).getD 0, 0, 0], kinds := [(a.map (·.kind.val)).getD 0, 0, 0],
      tval := BitVec.ofNat 64 addr }

/-- A fault raised: ELEMENT_FAULT notes it (R407). -/
def State.raise (s : State) (g : GraphIx) (i : FaultInfo) : State := s.updGraph g fun x => { x with raised := x.raised ++ [i] }

/-- An error token of a generator's own: it leaves in the output and the generator drains; a generator without an output
raises its cause as a fault (R254, R309). -/
def State.genBad (s : State) (g : GenAt) (cause : Byte) (detail : Nat) (va : Nat := 0) : State :=
  let l0 := cause.toNat + 256 * detail
  let i := { s.genFault g cause va with lane := laneOf cause detail, tval := BitVec.ofNat 64 l0 }
  if gOen (s.gen g).f then
    s.updGen g fun q => { q.push (errTok l0 (s.genLoc g)) true with
      half := { q.half with drain := some [] }, part := .empty, on := false, origins := i :: q.origins }
  else s.raise g.graph { i with cause := cause, tval := BitVec.ofNat 64 va }

/-- The firing that emitted an error token, by the token's lanes (R408, R413). -/
def State.originBy (s : State) (g : GraphIx) (t : Token) : Option FaultInfo :=
  let hit := fun (i : FaultInfo) => i.loc = (t.lane 1).toNat && i.tval.setWidth 40 = t.lane 0
  let x := s.graph g
  match x.gens.findSome? fun q => q.2.origins.find? hit with
  | some i => some i
  | none => x.pages.findSome? fun p => (List.range 64).findSome? fun k =>
      (s.site ⟨p.2.1, p.2.2, Fin.ofNat 16 (k / 4), Fin.ofNat 4 k⟩).origins.find? hit

/-- An error token reaches a sink: its cause is raised as a fault (R309, R401). -/
def State.sinkFault (s : State) (g : GenAt) (t : Token) : State :=
  let c := (t.lane 0).setWidth 8
  let o := (s.originBy g.graph t).getD { FaultInfo.none with loc := (t.lane 1).toNat, window := (s.gen g).win }
  s.raise g.graph { o with cause := c, ocause := c, origin := 1, sink := some g.gen.val, token := some t,
                           window := (s.gen g).win, tval := (t.lane 0).setWidth 64 }

/-- The head of the input is an error token: forwarded unchanged, or raised at a sink (R309). A bag goes on around it (log entry
76). -/
def gerror (g : GenAt) (t : Token) : GM Unit := do
  let q ← ggen g
  gtake g
  if gOen q.f then gupd g fun q => { q.push t true with part := if opcOf q.f = 6 then q.part else .empty }
  else fun s => .ok ((), s.sinkFault g t)

/-- A stream shape mismatch of R309. -/
def gshape {α : Type} (t : Token) : GM α := gfail (.bad 1 (t.kind.val + 512))

/-! ### Elements (R269-R273, R311) -/

/-- An address inside the virtual range. -/
def vaOk (a : Int) (n : Nat) : Bool := decide (0 ≤ a ∧ a + n ≤ (2 : Int) ^ 52)

/-- Where an element lies: first byte and bit (R269, R270, R311). -/
def Gen.elemAt (q : Gen) (off : Int) : Int × Nat :=
  if q.fmt.byElement then let p := q.fmt.place off; ((gBase q.f : Int) + p.1, p.2) else ((gBase q.f : Int) + off, 0)
/-- Whether every byte of an element lies in the virtual range (R311): its own, its block's scale, an SD block whole. -/
def Gen.elemOk (q : Gen) (off : Int) : Bool :=
  let p := q.elemAt off
  match q.fmt with
  | .sd d => vaOk p.1 (4 + 12 * d)
  | k => vaOk p.1 (spanBytes p.2 k.width) && (!k.isMx || vaOk (gBase q.f + k.scaleAt off) 1)

/-- The address of an element as a fault record gives it: 52 bits (R413). -/
def Gen.addrOf (q : Gen) (off : Int) : Nat := ((q.elemAt off).1 % (2 : Int) ^ 52).toNat

/-- A token whose valid lanes are those listed. -/
def laneTokOf (l : List (Nat × Lane)) : Token :=
  valueTok (maskOf fun i => l.any fun v => v.1 = i) false fun i => ((l.find? fun v => v.1 = i).map (·.2)).getD 0

/-- The raw encoding of an element, and its block's scale code (R269, R270). -/
def graw (g : GenAt) (off : Int) : GM (Nat × Nat) := do
  let q ← ggen g
  let p := q.elemAt off
  let v ← gnat g p.1.toNat (spanBytes p.2 q.fmt.width)
  let c ← if q.fmt.isMx then gnat g ((gBase q.f : Int) + q.fmt.scaleAt off).toNat 1 else pure 0
  pure (v / 2 ^ p.2 % 2 ^ q.fmt.width, c)

/-- Digit j of an element of an SD format (R160, R271). -/
def gdigit (g : GenAt) (off : Int) (j : Nat) : GM Int := do
  let q ← ggen g
  let bit := 3 * (off % 32).toNat
  let v ← gnat g ((q.elemAt off).1.toNat + 4 + 12 * (j - 1) + bit / 8) (spanBytes (bit % 8) 3)
  pure (codeDigit (v / 2 ^ (bit % 8) % 8))

/-- The scale code of an element's block in an SD format (R271). -/
def gsdScale (g : GenAt) (off : Int) : GM Nat := do
  let q ← ggen g
  gnat g (q.elemAt off).1.toNat 1

/-- A plane of signed digits of some elements, by lane (R162, R277). -/
def gplane (g : GenAt) (els : List (Nat × Int)) (j : Nat) : GM Token := do
  let vs ← els.mapM fun (p : Nat × Int) => do return (p.1, intOut (← gdigit g p.2 (j + 1)) false)
  pure (laneTokOf vs)

/-- A lane that the spec leaves open (log entry 2). -/
def gfree : GM Lane := fun s => let r := s.choose (2 ^ 40); .ok (BitVec.ofNat 40 r.1, r.2)

/-- An element loaded and converted (R156, R253); one of an SD format by R161, open where a digit is malformed. -/
def gelem (g : GenAt) (off : Int) : GM Lane := do
  let q ← ggen g
  match q.fmt with
  | .sd d =>
    let c ← gsdScale g off
    let ds ← (List.range d).mapM fun j => gdigit g off (j + 1)
    if c = 255 then pure wNan
    else if ds.contains (-4) then gfree
    else
      let v := (ds.zipIdx 1).foldl (fun (a : Dy) (p : Int × Nat) => a.add ⟨p.1, -2 * (p.2 : Int)⟩) ⟨0, 0⟩
      pure ((Dy.mk v.k (v.e + (c : Int) - 127)).round .rne false)
  | k =>
    let (v, c) ← graw g off
    pure (k.load v c)

/-- A conversion event counted at the generator's core (R274). -/
def gevent (g : GenAt) (b : Bool) : GM Unit := fun s =>
  .ok ((), if b then s.updCore (s.gen g).core fun k => { k with cvtev := if k.cvtev = -1 then k.cvtev else k.cvtev + 1 } else s)

/-- Bytes stored: they enter the generator's pocket (R403). -/
def gput (g : GenAt) (va : Nat) (bs : List Byte) (kind : PocketKind) : GM Unit := do
  let pas ← gpas g va bs.length .store
  fun s =>
    let x := (s.graph g.graph).openWin g.gen.val
    let e : PocketEntry := ⟨g.gen.val, (x.genOf g.gen.val).win, pas, bs, kind⟩
    .ok ((), s.setGraph g.graph { x with pocket := x.pocket ++ [e] })

/-- An encoding stored into an element's bits (R269). -/
def gputBits (g : GenAt) (off : Int) (v : Nat) : GM Unit := do
  let q ← ggen g
  let p := q.elemAt off
  let w := q.fmt.width
  let n := spanBytes p.2 w
  if w % 8 = 0 then gput g p.1.toNat (leBytes n v) .plain
  else gput g p.1.toNat (leBytes n (v * 2 ^ p.2)) (.masked (leBytes n ((2 ^ w - 1) * 2 ^ p.2)))

/-- A lane converted and stored into an element of a plain format (R272, R273). -/
def gstore (g : GenAt) (off : Int) (x : Lane) : GM Unit := do
  let q ← ggen g
  let (v, ev) := q.fmt.store x (gOvf q.f)
  gevent g ev
  gputBits g off v

/-- The offset of loop counters i0-i5 (R311). -/
def Gen.offset (q : Gen) (loop : List Nat) : Int :=
  (List.range (gNest q.f)).foldl (fun a l => a + (loop.getD l 0 : Int) * q.stride l) 0

/-- The counters after a run of level 0 has ended, and the highest level whose loop completed with it (R312). -/
def Gen.advance (q : Gen) (loop : List Nat) : List Nat × Nat :=
  let rec go : Nat → Nat → List Nat → List Nat × Nat
    | 0, l, i => (i, l - 1)
    | fuel + 1, l, i =>
      if gNest q.f ≤ l then (i, l - 1)
      else if i.getD l 0 + 1 < q.count l then (i.set l (i.getD l 0 + 1), l - 1)
      else go fuel (l + 1) (i.set l 0)
  go 6 1 (loop.set 0 0)

/-- A token of loaded lanes: for each lane listed, the offset of its element. -/
def gtoken (g : GenAt) (els : List (Nat × Int)) : GM Token := do
  let vs ← els.mapM fun (p : Nat × Int) => do return (p.1, ← gelem g p.2)
  pure (laneTokOf vs)

end Sys2Proof.Machine
end

