-- ==== Sys2Proof/Machine/MatrixNode.lean ====
section
/-! DEFINITION. Matrix nodes: operand tiles, the exact step, groups, accumulator streams, commands (19 R357-R370). -/

namespace Sys2Proof.Machine

/-! ### Operands (R359, R360) -/

/-- The element format of an AFMT or BFMT code (R359). -/
def mxFmt (c : Nat) : FloatFmt :=
  match c with
  | 0 => fmtBf16 | 1 => fmtFp16 | 2 => fmtE4m3 | 3 => fmtE5m2 | 4 => fmtE2m1 | 5 => fmtE4m3 | 6 => fmtE5m2 | _ => fmtE2m1
/-- Whether a code names an MX format (R359). -/
def mxScaled (c : Nat) : Bool := 5 ≤ c

/-- Encodings packed by R269, from the first byte on. -/
def unpackFrom (w : Nat) : List Byte → List Nat
  | [] => []
  | b :: r =>
    if w = 4 then b.toNat % 16 :: b.toNat / 16 :: unpackFrom w r
    else if w = 8 then b.toNat :: unpackFrom w r
    else match r with
      | [] => []
      | c :: r1 => (b.toNat + 256 * c.toNat) :: unpackFrom w r1

/-- An element's exact value, with the scale code of its block where the format has one (R359). -/
def mxValue (c : Nat) (v scale : Nat) : Num :=
  let x := (mxFmt c).read v
  if !mxScaled c then x else if scale = 255 then .nan else x.scale ((scale : Int) - 127)

/-- The 32 blocks of a dense operand, each a row of A or a column of B (R359). -/
def denseBlocks (c : Nat) (bs : List Byte) : List (List Num) :=
  let w := (mxFmt c).w
  let e := 4 * w
  (List.range 32).map fun b =>
    if mxScaled c then
      let s := b / 8 * (8 + 8 * e)
      let scale := (bs.getD (s + b % 8) 0).toNat
      (unpackFrom w ((bs.drop (s + 8 + b % 8 * e)).take e)).map fun v => mxValue c v scale
    else (unpackFrom w ((bs.drop (b * e)).take e)).map fun v => mxValue c v 0

/-- The set bits of an element bitmap, as Booleans in ascending order (R360). -/
def bitmapOf (bs : List Byte) : List Bool :=
  (bs.take 128).flatMap fun b => (List.range 8).map fun i => b.getLsbD i

/-- The elements of one block of a sparse operand: a clear bit is the element of code 0, a set one takes the next element
stored. DEDUCED (log 80): a cleared element of a block whose scale is 0xFF is NaN, as the same element written as zero is in
a dense operand, since R362 holds for every operand. -/
def spreadBlock (c scale : Nat) : List Bool → List Nat → List Num × List Nat
  | [], vs => ([], vs)
  | false :: r, vs => let (l, rest) := spreadBlock c scale r vs; (mxValue c 0 scale :: l, rest)
  | true :: r, vs => let (l, rest) := spreadBlock c scale r vs.tail; (mxValue c (vs.headD 0) scale :: l, rest)

/-- The blocks of a sparse operand, one after another (R360). -/
def spreadBlocks (c : Nat) (bs : List Byte) : Nat → Nat → List Bool → List Nat → List (List Num)
  | 0, _, _, _ => []
  | n + 1, b, bits, vs =>
    let scale := if mxScaled c then (bs.getD (128 + b) 0).toNat else 0
    let (l, rest) := spreadBlock c scale (bits.take 32) vs
    l :: spreadBlocks c bs n (b + 1) (bits.drop 32) rest

/-- Where the stored elements of a sparse operand begin (R360). -/
def sparseStart (c : Nat) : Nat := if mxScaled c then 160 else 128
/-- Bytes a sparse operand takes (R360, R369). -/
def sparseNeed (c : Nat) (bs : List Byte) : Nat :=
  sparseStart c + (((bitmapOf bs).filter id).length * (mxFmt c).w + 7) / 8

/-- Bytes a dense operand takes, the last column of R359. -/
def denseNeed (c : Nat) : Nat := 128 * (mxFmt c).w + (if mxScaled c then 32 else 0)
/-- Bytes the operand of a step takes (R359, R360). DEDUCED (log 17): R369 names the layout of R360 only; a dense step
whose formats a command or an MXCFG frame gives is held to its stage likewise, since R364 leaves MXCFG unchecked. -/
def operandNeed (sparse : Bool) (c : Nat) (bs : List Byte) : Nat := if sparse then sparseNeed c bs else denseNeed c

/-- The 32 blocks of an operand. -/
def operandBlocks (sparse : Bool) (c : Nat) (bs : List Byte) : List (List Num) :=
  if sparse then spreadBlocks c bs 32 0 (bitmapOf bs) (unpackFrom (mxFmt c).w (bs.drop (sparseStart c)))
  else denseBlocks c bs

/-! ### The step (R361) -/

/-- Whether a value is zero. -/
def Num.isZero : Num → Bool
  | .fin _ m _ => m = 0
  | _ => false

/-- The exact sum of two values; nan absorbs, opposite infinities give nan. -/
def sumNum (x y : Num) : Num :=
  match x, y with
  | .nan, _ => .nan
  | _, .nan => .nan
  | .inf a, .inf b => if a = b then .inf a else .nan
  | .inf a, .fin _ _ _ => .inf a
  | .fin _ _ _, .inf b => .inf b
  | .fin a m e, .fin b n f => let d := (dy a m e).add (dy b n f); .fin (d.k < 0) d.k.natAbs d.e

/-- One product: zero beats infinity and nan (R361). -/
def mxProduct (a b : Num) : Num := if a.isZero || b.isZero then .fin false 0 0 else mulNum a b

/-- The exact dot of a row and a column (R361). -/
def mxDot (row col : List Num) : Num := (row.zip col).foldl (fun d p => sumNum d (mxProduct p.1 p.2)) (.fin false 0 0)

/-- One entry after a step: the sum rounded once to binary32 (R361). -/
def mxEntry (old : BitVec 32) (d : Num) : BitVec 32 :=
  BitVec.ofNat 32 (fp32Round (match sumNum (fmtFp32.read old.toNat) d with
    | .fin s m e => if m = 0 then .fin false 0 0 else .fin s m e
    | y => y))

/-- acc := acc + A × B (R361). -/
def mxStep (a b : List (List Num)) (acc : SMap (BitVec 32)) : SMap (BitVec 32) :=
  (List.range 1024).filterMap fun i =>
    let v := mxEntry (acc.get 0 i) (mxDot (a.getD (i / 32) []) (b.getD (i % 32) []))
    if v = 0 then none else some (i, v)

/-! ### Accumulator streams (R365) -/

/-- An accumulator entry as a lane (R156). -/
def accLane (v : BitVec 32) : Lane := (fmtFp32.read v.toNat).round .rne

/-- The shape of an accumulator (R365). -/
def accShape (acc : SMap (BitVec 32)) : List Token :=
  (List.range 32).flatMap fun m =>
    let half := fun h => valueTok 0xFFFF false fun i => accLane (acc.get 0 (32 * m + 16 * h + i))
    [half 0, half 1, stopTok (if m < 31 then 0 else 1)]

/-- The token that the shape has at position n. -/
def shapeWants (n : Nat) (t : Token) : Bool :=
  if n % 3 < 2 then t.kind = 0 && !t.err else t.isStop && t.level = (if n / 3 < 31 then 0 else 1)

/-- A token of the shape taken into the accumulator that is being read (R365). -/
def shapeTake (n : Nat) (t : Token) (acc : SMap (BitVec 32)) : SMap (BitVec 32) :=
  if n % 3 < 2 then
    acc.setN 0 (32 * (n / 3) + 16 * (n % 3)) ((List.range 16).map fun i =>
      if t.valid i then BitVec.ofNat 32 (fmtFp32.store (readW40 (t.lane i)) false).1 else 0)
  else acc

/-! ### The node -/

/-- The node's state replaced. -/
def SitePlane.setMatrix (x : SitePlane) (q : Matrix) : SitePlane := { x with matrix := q }

/-- The reset of R98: accumulator +0, formats those of the frame, the group anew. What an arming set stays. -/
def Matrix.fresh (q : Matrix) : Matrix :=
  { q with acc := [], steps := 0, begun := false, load := 0, held := [], due := false, afmt := none, bfmt := none,
           cmd := none }
/-- The site with its node reset (R98). -/
def SitePlane.resetMatrix (x : SitePlane) : SitePlane := x.setMatrix x.matrix.fresh

/-- Arming (R367, R376): the count starts at TILES; accumulator and group position are kept. -/
def Matrix.arm (q : Matrix) (t : Nat) : Matrix :=
  { q with tiles := if t = 0 then none else some t, halted := false, stopped := false }

/-- AFMT in force (R364, R368). -/
def Matrix.aCode (q : Matrix) (f : FrameBits) : Nat := q.afmt.getD (opx (modOf f) 13 3)
/-- BFMT in force. -/
def Matrix.bCode (q : Matrix) (f : FrameBits) : Nat := q.bfmt.getD (opx (modOf f) 10 3)
/-- INIT (R364). -/
def mxInit (f : FrameBits) : Bool := (modOf f).getLsbD 9
/-- KSTEPS (R364). -/
def mxSteps (f : FrameBits) : Nat := fld f 0 16

/-- Whether the switch frame routes port C (R364). -/
def SitePlane.routesC (x : SitePlane) : Bool := x.select 10 ≠ 0

/-- The ports of a matrix opcode (R364). -/
def mxPorts (op : Nat) (f : FrameBits) (x : SitePlane) : List Nat :=
  if op = 0x44 then (if x.routesC then [0, 2] else [0]) else if mxInit f then [2] else []

/-- The next token of the output buffer leaves for O (R365, R366). -/
def mxEmit (f : FrameBits) (env : Env) (x : SitePlane) : Option SitePlane :=
  match x.matrix.buf with
  | [] => none
  | t :: r => if env.free.contains 0 then some ((x.setMatrix { x.matrix with buf := r }).put false 0 (rlvlOf f) t) else none

/-- A token of the shape read from port C; `after` is the node once the shape is whole (R365). -/
def mxLoad (f : FrameBits) (env : Env) (x : SitePlane) (ports : List Nat) (after : Matrix → Matrix) : Option SitePlane :=
  let q := x.matrix
  match x.look env false [2] [0] (rlvlOf f) with
  | .wait => none
  | .done y => some y
  | .go t =>
    if shapeWants q.load t then
      let held := shapeTake q.load t q.held
      some ((x.eat [2]).setMatrix (if q.load = 95 then after { q with acc := held, held := [], load := 0 }
        else { q with held := held, load := q.load + 1 }))
    else if q.load = 0 && t.isDone && ports = [2] then
      if env.free.contains 0 then
        some ((((x.eat [2]).put false 0 (rlvlOf f) doneTok).windowMark env false t).resetMatrix)
      else none
    else if env.free.contains 0 then some (x.fail env false ports [0] (rlvlOf f) 1 (shapeDetail x [2])) else none

/-- MMA and SMMA beside their steps (R366): the buffer is emitted, a finished group is copied, the next one begins unless
a cut holds it at its boundary (R438) or its page's section does not run (R121, R366); `hold` is either. A node that a withdrawn cut had stopped stays stopped (R439). -/
def fireGroup (op : Nat) (f : FrameBits) (env : Env) (hold : Bool) (x : SitePlane) : Option SitePlane :=
  let q := x.matrix
  let ports := mxPorts op f x
  if x.elem.drain.isSome then x.drainStep env false ports ports (rlvlOf f) SitePlane.resetMatrix
  else if q.due && q.buf.isEmpty then
    some (x.setMatrix { q with buf := accShape q.acc, due := false, steps := 0, begun := false })
  else match mxEmit f env x with
    | some y => some y
    | none =>
      if q.begun || q.due || q.halted || q.expire || ((hold || q.stopped) && q.load = 0) then none
      else if !mxInit f then some (x.setMatrix { q with acc := [], begun := true })
      else mxLoad f env x ports fun r => { r with begun := true }

/-- Whether a step may start on the node's side: a group is under way, or a command asks for it (R366, R368). -/
def mxMayStep (op : Nat) (f : FrameBits) (x : SitePlane) : Bool :=
  let q := x.matrix
  x.elem.drain.isNone && !q.halted && !q.expire && !q.due &&
  (if op = 0x44 then q.cmd.any fun c => (c.code = 0x40 || c.code = 0x41) && c.left ≠ 0
   else q.begun && q.steps < mxSteps f)

/-- Whether the node's steps read bitmaps (R366, R368). -/
def mxSparse (op : Nat) (x : SitePlane) : Bool :=
  if op = 0x44 then x.matrix.cmd.any fun c => c.code = 0x41 else op = 0x41

/-- The node after a step: the count, the group, the command (R366-R368). -/
def Matrix.stepped (q : Matrix) (op : Nat) (f : FrameBits) (acc : SMap (BitVec 32)) : Matrix :=
  let left := q.tiles.map (· - 1)
  let q1 := { q with acc := acc, tiles := left, expire := left = some 0, halted := left = some 0 }
  if op = 0x44 then
    { q1 with cmd := q.cmd.bind fun c => if c.left ≤ 1 then none else some { c with left := c.left - 1 } }
  else { q1 with steps := q.steps + 1, due := decide (mxSteps f ≤ q.steps + 1) }

/-- One step at the site of a node, with its two tiles and their bytes (R358, R361, R369): none where it cannot start. -/
def stepNode (op : Nat) (f : FrameBits) (env : Env) (x : SitePlane) (fa fb : FrameBits) (ta tb : SitePlane)
    (ma mb : SMap Byte) : Option (SitePlane × SitePlane × SitePlane) :=
  if !mxMayStep op f x then none
  else match ta.tile.acquireC 5, tb.tile.acquireC 5 with
    | some ua, some ub =>
      let ba := ma.getN 0 (stageOff fa ua.cp) (tileBuf fa)
      let bb := mb.getN 0 (stageOff fb ub.cp) (tileBuf fb)
      let sparse := mxSparse op x
      let ca := x.matrix.aCode f
      let cb := x.matrix.bCode f
      let bad : Option (Byte × Nat) :=
        if hitsBad env.badA (stageOff fa ua.cp) (tileBuf fa) then some (0xB0, 0)
        else if hitsBad env.badB (stageOff fb ub.cp) (tileBuf fb) then some (0xB0, 1)
        else if tileBuf fa < operandNeed sparse ca ba then some (8, 0)
        else if tileBuf fb < operandNeed sparse cb bb then some (8, 1) else none
      let free := ta.setTile ((ua.releaseC fa 5).getD ua)
      let freeB := tb.setTile ((ub.releaseC fb 5).getD ub)
      match bad with
      | some w =>
        if x.matrix.buf.isEmpty && env.free.contains 0 then
          let y := x.fail env false [] [0] (rlvlOf f) w.1 w.2
          some (y.setMatrix { y.matrix with acc := [], halted := true }, free, freeB)
        else none
      | none =>
        let acc := mxStep (operandBlocks sparse ca ba) (operandBlocks sparse cb bb) x.matrix.acc
        some (x.setMatrix (x.matrix.stepped op f acc), free, freeB)
    | _, _ => none

/-- The count has run out: after the group, D on O and DONE (R367). -/
def expireNode (f : FrameBits) (env : Env) (x : SitePlane) : Option SitePlane :=
  let q := x.matrix
  if q.expire && !q.due && q.buf.isEmpty && x.elem.drain.isNone && env.free.contains 0 then
    some ((x.setMatrix { q with expire := false }).put false 0 (rlvlOf f) doneTok)
  else none

/-! ### Command mode (R368) -/

/-- The command at port A: its code and operand, where lanes 0 and 1 are valid. -/
def mxHead (x : SitePlane) : Option (Nat × Nat) :=
  (x.head 0).bind fun a =>
    if a.kind = 0 && !a.err && a.valid 0 && a.valid 1 then some ((a.lane 0).toNat % 256, uint32 (a.lane 1)) else none

/-- MXCFG beside its commands: the buffer, stops and D, error tokens, commands it cannot carry out (R368, R369). -/
def fireCommand (f : FrameBits) (env : Env) (x : SitePlane) : Option SitePlane :=
  let q := x.matrix
  let ports := mxPorts 0x44 f x
  if x.elem.drain.isSome then x.drainStep env false ports ports (rlvlOf f) SitePlane.resetMatrix
  else match mxEmit f env x with
    | some y => some y
    | none =>
      if q.cmd.isSome || q.expire || !q.buf.isEmpty then none
      else match x.errPort [0] with
        | some (p, t) => if env.free.contains 0 then some (x.forward false p [0] (rlvlOf f) t) else none
        | none => (x.head 0).bind fun a =>
          if !env.free.contains 0 then none
          else if a.closes then
            let y := ((x.eat [0]).put false 0 (rlvlOf f) a.bare).windowMark env false a
            some (if closesAt a (rlvlOf f) then y.resetMatrix else y)
          else
            let bad := fun (n : Nat) =>
              let y := x.fail env false [0] [0] (rlvlOf f) 9 n
              some (y.eat [0])
            if !a.valid 0 then bad 255
            else match mxHead x with
              | none => bad ((a.lane 0).toNat % 256)
              | some (c, v) =>
                if c < 0x40 ∨ 0x44 < c then bad c
                else if c = 0x42 && v % 2 = 1 && !x.routesC then bad c
                else none

/-- A command of MXCFG is started, and those without steps or tokens are carried out (R368). -/
def fireMx (code : Nat) (f : FrameBits) (env : Env) (x : SitePlane) : Option SitePlane :=
  let q := x.matrix
  if x.elem.drain.isSome then none
  else match q.cmd with
  | some c =>
    if c.code = 0x42 && code = 0x42 then mxLoad f env x (mxPorts 0x44 f x) fun r => { r with cmd := none } else none
  | none => match mxHead x with
    | none => none
    | some (c, v) =>
      if c ≠ code || q.expire then none
      else match code with
        | 0x42 =>
          if v % 2 = 0 then some ((x.eat [0]).setMatrix { q with acc := [] })
          else if x.routesC then some ((x.eat [0]).setMatrix { q with cmd := some ⟨0x42, 0⟩, load := 0, held := [] })
          else none
        | 0x43 => if q.buf.isEmpty then some ((x.eat [0]).setMatrix { q with buf := accShape q.acc }) else none
        | 0x44 => some ((x.eat [0]).setMatrix { q with afmt := some (v / 2 ^ 13 % 8), bfmt := some (v / 2 ^ 10 % 8) })
        | _ =>
          let n := v % 2 ^ 16
          some ((x.eat [0]).setMatrix (if n = 0 then q else { q with cmd := some ⟨code, n⟩ }))

end Sys2Proof.Machine
end

