-- ==== Sys2Proof/Machine/World.lean ====
section
/-! DEFINITION. The world store: its descriptors, bricks and cells, camera images, rays, marches and updates (17 R334-R343,
R350). A store of a graph is held as the 64 bytes of its descriptor, followed by the descriptor's address in 8 bytes. -/

namespace Sys2Proof.Machine

/-! ### Fields of byte images -/

/-- A little-endian field of a byte image. -/
def byteNat (bs : List Byte) (o n : Nat) : Nat := leNat ((bs.drop o).take n)
/-- An FP32 field read into W40 (R156). -/
def byteF32 (bs : List Byte) (o : Nat) : Lane := (fmtOf 0).load (byteNat bs o 4) 0
/-- Whether an FP32 field is finite. -/
def finiteAt (bs : List Byte) (o : Nat) : Bool := match fmtFp32.read (byteNat bs o 4) with
  | .fin _ _ _ => true
  | _ => false
/-- Whether bytes are all zero. -/
def zeroAt (bs : List Byte) (o n : Nat) : Bool := ((bs.drop o).take n).all (· = 0)

/-! ### The store descriptor (R334) -/

abbrev StoreD := List Byte
def StoreD.so (d : StoreD) (a : Nat) : Lane := byteF32 d (4 * a)
def StoreD.csize (d : StoreD) : Lane := byteF32 d 12
def StoreD.dim (d : StoreD) (a : Nat) : Nat := byteNat d (16 + 2 * a) 2
def StoreD.rule (d : StoreD) : Nat := byteNat d 22 1 % 4
def StoreD.pfmt (d : StoreD) : FmtKind := fmtOf (byteNat d 23 1)
def StoreD.plen (d : StoreD) : Nat := byteNat d 24 2
def StoreD.cthr (d : StoreD) : Lane := byteF32 d 28
def StoreD.ctab (d : StoreD) : Nat := byteNat d 32 8
def StoreD.freel (d : StoreD) : Nat := byteNat d 40 8
def StoreD.fill (d : StoreD) : Lane := byteF32 d 52
def StoreD.pool (d : StoreD) : Nat := byteNat d 56 8
/-- The address of FCNT (R334, R339). -/
def StoreD.fcnt (d : StoreD) : Nat := byteNat d 64 8 + 48
/-- Bytes of a payload element. -/
def StoreD.ebytes (d : StoreD) : Nat := d.pfmt.width / 8
/-- RSIZE (R336). -/
def StoreD.rsize (d : StoreD) : Nat := 16 * ((16 + d.plen * d.ebytes + 15) / 16)

/-- Whether a descriptor keeps to R334. -/
def storeOk (d : List Byte) : Bool :=
  let e := byteNat d 23 1
  let addr := fun (o unit : Nat) => byteNat d o 8 % unit = 0 && decide (byteNat d o 8 < 2 ^ 52)
  finiteAt d 0 && finiteAt d 4 && finiteAt d 8 &&
  finiteAt d 12 && decide (0x00800000 ≤ byteNat d 12 4 ∧ byteNat d 12 4 < 0x7F800000) &&
  ((List.range 3).all fun a => let n := byteNat d (16 + 2 * a) 2; decide (8 ≤ n ∧ n ≤ 16384 ∧ n % 8 = 0)) &&
  decide (byteNat d 22 1 < 4) && decide (e ≤ 2) && (byteNat d 22 1 ≠ 3 || e = 0) &&
  decide (1 ≤ byteNat d 24 2 ∧ byteNat d 24 2 * ((fmtOf e).width / 8) ≤ 256) && zeroAt d 26 2 &&
  fmtFp32.read (byteNat d 28 4) ≠ .nan && addr 32 64 && addr 40 4 && addr 56 64

/-! ### Camera images (R340) -/

abbrev Camera := List Byte
def Camera.m (c : Camera) (i j : Nat) : Lane := byteF32 c (16 * i + 4 * j)
def Camera.orig (c : Camera) (a : Nat) : Lane := byteF32 c (48 + 4 * a)
def Camera.du (c : Camera) (a : Nat) : Lane := byteF32 c (60 + 4 * a)
def Camera.dv (c : Camera) (a : Nat) : Lane := byteF32 c (72 + 4 * a)
def Camera.d0 (c : Camera) (a : Nat) : Lane := byteF32 c (84 + 4 * a)
def Camera.near (c : Camera) : Lane := byteF32 c 100
def Camera.far (c : Camera) : Lane := byteF32 c 104
def Camera.store (c : Camera) : Nat := byteNat c 108 1
/-- An empty camera register. -/
def Camera.zero : Camera := List.replicate 128 0

/-- Whether an image keeps to R340, in a graph of so many stores. -/
def camOk (stores : Nat) (c : Camera) : Bool :=
  let dim := fun (o : Nat) => let n := byteNat c o 2; decide (1 ≤ n ∧ n ≤ 16384)
  ((List.range 24).all fun i => finiteAt c (4 * i)) && dim 96 && dim 98 &&
  finiteAt c 100 && finiteAt c 104 &&
  !(readW40 c.near).lt (.fin false 0 0) && (readW40 c.near).lt (readW40 c.far) &&
  decide (c.store < stores) && zeroAt c 116 12

/-- The live camera register of a graph (R340). -/
def Graph.camera (x : Graph) (n : Nat) : Camera := x.cams.get Camera.zero n
/-- CLIP counted up (R340). -/
def Graph.clip (x : Graph) (n : Nat) : Graph :=
  let c := x.camera n
  let v := min (byteNat c 112 4 + 1) (2 ^ 32 - 1)
  { x with cams := x.cams.set Camera.zero n (c.take 112 ++ leBytes 4 v ++ c.drop 116) }

/-! ### Division (R153, R155) -/

/-- A quotient of dyadic numbers rounded once; the divisor is not zero. -/
def divDy (n d : Dy) (rnd : Rnd) : Lane :=
  if n.k = 0 then wZero (d.k < 0)
  else
    let s := 80 + Nat.log2 d.k.natAbs
    let num := n.k.natAbs * 2 ^ s
    let q := num / d.k.natAbs
    wRound ((n.k < 0) != (d.k < 0)) (sticky q (num % d.k.natAbs = 0)) (n.e - d.e - s - 1) rnd false

/-- A quotient of two values. -/
def fdiv (x y : Num) : Lane :=
  match x, y with
  | .nan, _ => wNan
  | _, .nan => wNan
  | .inf _, .inf _ => wNan
  | .inf a, .fin b _ _ => wInf (a != b)
  | .fin a _ _, .inf b => wZero (a != b)
  | .fin a m e, .fin b n f =>
    if n = 0 then (if m = 0 then wNan else wInf (a != b))
    else if m = 0 then wZero (a != b)
    else divDy (dy a m e) (dy b n f) .rne

/-- The dyadic value of a finite pattern. -/
def laneDy (v : Lane) : Option Dy := match readW40 v with
  | .fin s m e => some (dy s m e)
  | _ => none

/-! ### Rays and cells (R342) -/

/-- r_a (R342). -/
def rayOf (c : Camera) (u v : Lane) (a : Nat) : Lane := ffma v (c.dv a) (ffma u (c.du a) (c.d0 a) .rne) .rne
/-- p_a (R342). -/
def pointOf (c : Camera) (u v t : Lane) (a : Nat) : Lane := ffma t (rayOf c u v a) (c.orig a) .rne
/-- i_a of a point, if it is finite (R342). -/
def cellOf (d : StoreD) (p : Lane) (a : Nat) : Option Int :=
  match laneDy p, laneDy (d.so a), laneDy d.csize with
  | some x, some o, some s =>
    let q := divDy (x.add ⟨-o.k, o.e⟩) s .rne
    (laneDy q).map Dy.floor
  | _, _, _ => none

/-- The cell coordinates of a point, if they lie inside the store's dimensions (R342). -/
def cellsOf (d : StoreD) (p : Nat → Lane) : Option (Nat × Nat × Nat) :=
  let one := fun a => (cellOf d (p a) a).bind fun i => if 0 ≤ i ∧ i < (d.dim a : Int) then some i.toNat else none
  match one 0, one 1, one 2 with
  | some x, some y, some z => some (x, y, z)
  | _, _, _ => none

/-- Whether u, v and t lie in the camera's image and depth range (R342). -/
def inView (c : Camera) (u v t : Lane) : Bool :=
  let below := fun (x : Lane) (n : Nat) => !(readW40 x).lt (.fin false 0 0) && (readW40 x).lt (.fin false n 0)
  below u (byteNat c 96 2) && below v (byteNat c 98 2) &&
  !(readW40 t).lt (readW40 c.near) && !(readW40 c.far).lt (readW40 t)

/-- The view depth of a cell's centre (R342). -/
def viewDepth (c : Camera) (d : StoreD) (cell : Nat × Nat × Nat) : Lane :=
  let ctr := fun (a i : Nat) => ffma ((Dy.mk (2 * i + 1 : Nat) (-1)).round .rne false) d.csize (d.so a) .rne
  let z0 := ffma (c.m 2 0) (ctr 0 cell.1) (c.m 2 3) .rne
  ffma (c.m 2 2) (ctr 2 cell.2.2) (ffma (c.m 2 1) (ctr 1 cell.2.1) z0 .rne) .rne

/-! ### Chunks, bricks, records (R336-R338) -/

/-- Chunks along an axis (R336). -/
def StoreD.chunks (d : StoreD) (a : Nat) : Nat := (d.dim a + 127) / 128
/-- k of a cell (R336). -/
def brickOf (c : Nat × Nat × Nat) : Nat := c.1 / 8 % 16 + 16 * (c.2.1 / 8 % 16) + 256 * (c.2.2 / 8 % 16)
/-- j of a cell (R336). -/
def slotOf (c : Nat × Nat × Nat) : Nat := c.1 % 8 + 8 * (c.2.1 % 8) + 64 * (c.2.2 % 8)
/-- The address of a record in brick b (R336). -/
def StoreD.recordAt (d : StoreD) (b j : Nat) : Nat := d.pool + b * 512 * d.rsize + j * d.rsize

/-- The chunk record of a cell; none where the entry is not valid (R336). -/
def gchunk (g : GenAt) (d : StoreD) (c : Nat × Nat × Nat) : GM (Option Nat) := do
  let e ← gnat g (d.ctab + 8 * (c.1 / 128 + d.chunks 0 * (c.2.1 / 128 + d.chunks 1 * (c.2.2 / 128)))) 8
  pure (if e % 2 = 1 && e / 2 % 32 = 0 && decide (e < 2 ^ 52) then some (e / 64 * 64) else none)

/-- The brick of a cell in its chunk, where it is allocated (R337). -/
def gbrick (g : GenAt) (rec k : Nat) : GM (Option Nat) := do
  let b ← gnat g (rec + k / 8) 1
  if b / 2 ^ (k % 8) % 2 = 1 then return some (← gnat g (rec + 512 + 4 * k) 4) else return none

/-- The record of a cell, if its brick is allocated: its address and bytes (R336-R338). -/
def grecord (g : GenAt) (d : StoreD) (rec : Nat) (c : Nat × Nat × Nat) : GM (Option (Nat × List Byte)) := do
  match ← gbrick g rec (brickOf c) with
  | none => pure none
  | some b =>
    let a := d.recordAt b (slotOf c)
    pure (some (a, ← gread g a d.rsize))

/-- Whether a record's cell is occupied (R338). -/
def recOcc (r : List Byte) : Bool := byteNat r 9 1 % 2 = 1

/-- Whether a cell qualifies for a march (R343). -/
def qualifies (d : StoreD) (r : List Byte) : Bool :=
  recOcc r && !(readW40 (byteF32 r 0)).lt (readW40 d.cthr) && readW40 (byteF32 r 0) ≠ .nan

/-! ### Marches (R343) -/

/-- A quotient of dyadic numbers with positive divisor, kept exact. -/
structure Quot where
  n : Dy
  d : Dy

/-- a < b. -/
def Quot.lt (a b : Quot) : Bool := (a.n.mul b.d).cmp (b.n.mul a.d) < 0

/-- What a march needs of a ray: the store, the point P and the direction by axis, NEAR. -/
structure Ray where
  d    : StoreD
  p    : Nat → Dy
  r    : Nat → Dy
  near : Dy
  so   : Nat → Dy
  cs   : Dy

/-- The ray of a coordinate, where everything is finite. -/
def rayFor (c : Camera) (d : StoreD) (u v : Lane) : Option Ray := do
  let f := fun (g : Nat → Lane) => do return (← laneDy (g 0), ← laneDy (g 1), ← laneDy (g 2))
  let at3 := fun (t : Dy × Dy × Dy) (a : Nat) => match a with | 0 => t.1 | 1 => t.2.1 | _ => t.2.2
  let p ← f (pointOf c u v c.near)
  let r ← f (rayOf c u v)
  let o ← f d.so
  return ⟨d, at3 p, at3 r, ← laneDy c.near, at3 o, ← laneDy d.csize⟩

/-- The parameter at which the segment leaves cell coordinate i of an axis; none where it never does. -/
def Ray.leaves (y : Ray) (a i : Nat) : Option Quot :=
  let r := y.r a
  if r.k = 0 then none
  else
    let face := (y.so a).add (y.cs.mul ⟨if 0 < r.k then (i : Int) + 1 else i, 0⟩)
    let gap := face.add ⟨-(y.p a).k, (y.p a).e⟩
    let n : Dy := if 0 < r.k then gap else ⟨-gap.k, gap.e⟩
    let den : Dy := ⟨r.k.natAbs, r.e⟩
    some ⟨n.add (y.near.mul den), den⟩

/-- The axis the segment crosses first, x before y before z at one parameter. -/
def Ray.nextAxis (y : Ray) (c : Nat × Nat × Nat) : Option (Nat × Quot) :=
  let cand := [(0, c.1), (1, c.2.1), (2, c.2.2)].filterMap fun q => (y.leaves q.1 q.2).map fun s => (q.1, s)
  cand.foldl (fun b q => match b with
    | none => some q
    | some w => if q.2.lt w.2 then some q else some w) none

/-- The cell one step along an axis; none below coordinate 0. -/
def stepCell (c : Nat × Nat × Nat) (a : Nat) (up : Bool) : Option (Nat × Nat × Nat) :=
  let mv := fun (n : Nat) => if up then some (n + 1) else if n = 0 then none else some (n - 1)
  match a with
  | 0 => (mv c.1).map fun n => (n, c.2.1, c.2.2)
  | 1 => (mv c.2.1).map fun n => (c.1, n, c.2.2)
  | _ => (mv c.2.2).map fun n => (c.1, c.2.1, n)

/-- What a march found: the cell and its record. -/
abbrev Found := Option ((Nat × Nat × Nat) × List Byte)

/-- A march from a cell on, entered at a parameter: the first cell that qualifies and is accepted (R343). -/
def gmarch (g : GenAt) (y : Ray) (limit : Dy) (accept : Nat × Nat × Nat → Quot → Bool) :
    Nat → Nat × Nat × Nat → Quot → GM Found
  | 0, _, _ => pure none
  | fuel + 1, c, s => do
    if Quot.lt ⟨limit, ⟨1, 0⟩⟩ s || !(decide (c.1 < y.d.dim 0) && decide (c.2.1 < y.d.dim 1) && decide (c.2.2 < y.d.dim 2))
    then pure none
    else match ← gchunk g y.d c with
      | none => pure none
      | some rec =>
        let r ← grecord g y.d rec c
        match r with
        | some (_, bs) =>
          if qualifies y.d bs && accept c s then pure (some (c, bs))
          else match y.nextAxis c with
            | none => pure none
            | some (a, s1) => match stepCell c a (0 < (y.r a).k) with
              | none => pure none
              | some c1 => gmarch g y limit accept fuel c1 s1
        | none => match y.nextAxis c with
          | none => pure none
          | some (a, s1) => match stepCell c a (0 < (y.r a).k) with
            | none => pure none
            | some c1 => gmarch g y limit accept fuel c1 s1

/-! ### Updates (R339, R350) -/

/-- f32 of R350 of an exact value. -/
def f32 (x : Num) : Nat := (fmtFp32.store x true).1

/-- The record after put (R350). -/
def recPut (d : StoreD) (cam : Camera) (rec : List Byte) (dep : Nat) (w : Lane) (x : List Lane) : List Byte :=
  let blend := d.rule = 3
  let pay := x.flatMap fun v =>
    leBytes d.ebytes (if blend then f32 (mulNum (readW40 w) (readW40 v)) else match d.pfmt with
      | .float f => (f.store (readW40 v) true).1
      | _ => 0)
  (leBytes 4 (f32 (readW40 w)) ++ leBytes 4 dep ++ [cam.getD 109 0, if blend then 3 else 1] ++ (cam.drop 110).take 2 ++
    List.replicate 4 (0 : Byte) ++ pay ++ List.replicate rec.length (0 : Byte)).take rec.length

/-- cam_update of R350: the record after an update. -/
def camUpdate (d : StoreD) (cam : Camera) (rec : List Byte) (t w : Lane) (x : List Lane) : List Byte :=
  let dep := f32 (readW40 t)
  let old := fmtFp32.read (byteNat rec 4 4)
  if !recOcc rec then recPut d cam rec dep w x
  else match d.rule with
    | 0 => if (fmtFp32.read dep).lt old || (fmtFp32.read dep).eq old then recPut d cam rec dep w x else rec
    | 1 => recPut d cam rec dep w x
    | 2 => rec
    | _ =>
      let conf := f32 (sumNum (fmtFp32.read (byteNat rec 0 4)) (readW40 w))
      let pay := x.zipIdx.flatMap fun v =>
        leBytes 4 (f32 (sumNum (fmtFp32.read (byteNat rec (16 + 4 * v.2) 4)) (mulNum (readW40 w) (readW40 v.1))))
      let near := if (fmtFp32.read dep).lt old then dep else byteNat rec 4 4
      (leBytes 4 conf ++ leBytes 4 near ++ [cam.getD 109 0, rec.getD 9 0] ++ (cam.drop 110).take 2 ++
        (rec.drop 12).take 4 ++ pay ++ rec.drop (16 + 4 * x.length)).take rec.length

end Sys2Proof.Machine
end

