-- ==== Sys2Proof/Machine/Stamp.lean ====
section
/-! DEFINITION. The provenance stamp unit: SHA-256, the mark key, the mark of a frame and its record (29 R473-R476). -/

namespace Sys2Proof.Machine

/-! ### SHA-256 -/

/-- The largest k-th root of n below r + 2 ^ b, built from its highest bit down. -/
def rootFrom (k n : Nat) : Nat → Nat → Nat
  | 0, r => r
  | b + 1, r => rootFrom k n b (if (r + 2 ^ b) ^ k ≤ n then r + 2 ^ b else r)

/-- The first 32 bits of the fraction of the k-th root of p. -/
def rootWord (k p : Nat) : Nat := rootFrom k (p * 2 ^ (32 * k)) 37 0 % 2 ^ 32

/-- The primes below 312: the first 64. -/
def shaPrimes : List Nat := (List.range 312).filter fun n => 2 ≤ n && (List.range n).all fun d => d < 2 || n % d ≠ 0

/-- The round constants of SHA-256: from the cube roots of the first 64 primes. -/
def shaK : List Nat := shaPrimes.map (rootWord 3)

/-- The initial hash value: from the square roots of the first eight primes. -/
def shaInit : List (BitVec 32) := (shaPrimes.take 8).map fun p => BitVec.ofNat 32 (rootWord 2 p)

/-- A word of four bytes, most significant first. -/
def beWord (bs : List Byte) : BitVec 32 := BitVec.ofNat 32 (bs.foldl (fun n b => n * 256 + b.toNat) 0)
/-- The n bytes of a number, most significant first. -/
def beBytes (n v : Nat) : List Byte := (leBytes n v).reverse

/-- The message padded to whole blocks. -/
def shaPad (m : List Byte) : List Byte :=
  m ++ [0x80] ++ List.replicate ((119 - m.length % 64) % 64) (0 : Byte) ++ beBytes 8 (8 * m.length)

/-- The message schedule, newest word first. -/
def shaSchedule : Nat → List (BitVec 32) → List (BitVec 32)
  | 0, w => w
  | n + 1, w =>
    let x := w.getD 14 0
    let y := w.getD 1 0
    let s0 := x.rotateRight 7 ^^^ x.rotateRight 18 ^^^ (x >>> 3)
    let s1 := y.rotateRight 17 ^^^ y.rotateRight 19 ^^^ (y >>> 10)
    shaSchedule n ((w.getD 15 0 + s0 + w.getD 6 0 + s1) :: w)

/-- One round on the eight working words. -/
def shaRound (h : List (BitVec 32)) (kw : Nat × BitVec 32) : List (BitVec 32) :=
  match h with
  | [a, b, c, d, e, f, g, i] =>
    let s1 := e.rotateRight 6 ^^^ e.rotateRight 11 ^^^ e.rotateRight 25
    let ch := (e &&& f) ^^^ (~~~e &&& g)
    let t1 := i + s1 + ch + BitVec.ofNat 32 kw.1 + kw.2
    let s0 := a.rotateRight 2 ^^^ a.rotateRight 13 ^^^ a.rotateRight 22
    let mj := (a &&& b) ^^^ (a &&& c) ^^^ (b &&& c)
    [t1 + (s0 + mj), a, b, c, d + t1, e, f, g]
  | l => l

/-- One block. -/
def shaBlock (h : List (BitVec 32)) (blk : List Byte) : List (BitVec 32) :=
  let w0 := ((List.range 16).map fun i => beWord ((blk.drop (4 * i)).take 4)).reverse
  let w := (shaSchedule 48 w0).reverse
  let r := (shaK.zip w).foldl shaRound h
  (h.zip r).map fun p => p.1 + p.2

/-- The blocks of a message, one after another. -/
def shaBlocks : Nat → List (BitVec 32) → List Byte → List (BitVec 32)
  | 0, h, _ => h
  | n + 1, h, m => shaBlocks n (shaBlock h (m.take 64)) (m.drop 64)

/-- The digest of a message, 32 bytes. -/
def sha256 (m : List Byte) : List Byte :=
  let p := shaPad m
  (shaBlocks (p.length / 64) shaInit p).flatMap fun w => beBytes 4 w.toNat

/-- HMAC-SHA-256. -/
def hmac (key msg : List Byte) : List Byte :=
  let k0 := if 64 < key.length then sha256 key else key
  let k := k0 ++ List.replicate (64 - k0.length) (0 : Byte)
  sha256 ((k.map (· ^^^ 0x5C)) ++ sha256 ((k.map (· ^^^ 0x36)) ++ msg))

/-- MKEY as a boot derives it (R473). -/
def bootMkey : Word :=
  let secret := beBytes 32 Config.fusedSecret.toNat
  let msg : List Byte := [0x6D, 0x61, 0x72, 0x6B] ++ leBytes 4 Config.serial.toNat
  BitVec.ofNat 64 (leNat ((hmac secret msg).take 8))

/-! ### The mark (R475) -/

/-- MARK of a frame: SERIAL, TIME and the request id (R475). -/
def frameMark (serial time req : Nat) : Nat := serial % 2 ^ 24 * 2 ^ 40 + time % 2 ^ 24 * 2 ^ 16 + req % 2 ^ 16

/-- One luma pixel after embedding (R475). -/
def markPixel (mark : Nat) (key : Word) (req frame width i : Nat) (pix : Byte) : Byte :=
  let x := i % width
  let y := i / width
  let b := y / 8 * (width / 8) + x / 8
  let j := y % 8 * 8 + x % 8
  let bit := mark / 2 ^ (b % 64) % 2
  let w := philox b (frame % 2 ^ 32) (req % 2 ^ 32) (req / 2 ^ 32 % 2 ^ 32) (field key 0 32) (field key 32 32)
  let s := (if j < 32 then w.1 else w.2.1) / 2 ^ (j % 32) % 2
  if s = bit then (if pix = 0xFF then pix else pix + 1) else if pix = 0 then pix else pix - 1

/-- The frame after embedding: luma marked, chroma unchanged (R475). -/
def markFrame (mark : Nat) (key : Word) (req frame width height : Nat) (bs : List Byte) : List Byte :=
  (bs.take (width * height)).zipIdx.map (fun p => markPixel mark key req frame width p.2 p.1) ++ bs.drop (width * height)

/-- The 64 bytes of a stamp record before its signature (R476). -/
def stampHead (digest : List Byte) (req frame serial time mark : Nat) : List Byte :=
  digest ++ leBytes 8 req ++ leBytes 4 frame ++ leBytes 4 serial ++ leBytes 8 time ++ leBytes 8 mark

/-- The whole record (R476). -/
def stampRecord (digest : List Byte) (req frame serial time mark : Nat) : List Byte :=
  let h := stampHead digest req frame serial time mark
  h ++ beBytes 64 (Config.sign (BitVec.ofNat 256 ((sha256 h).foldl (fun n b => n * 256 + b.toNat) 0))).toNat

/-! ### A frame that drains (R474-R476) -/

/-- How a frame fares at its drain. -/
inductive Stamped where
  | done (s : State)
  | wait                                -- the ring is full
  | refused (cause : Byte) (addr : Nat)
  deriving DecidableEq, Repr

/-- A frame written: stamped where a byte of it lies in a locked designated range (R474-R476). -/
def State.egressFrame (s : State) (pas : List Nat) (bs : List Byte) (req frame width height : Nat) : Stamped :=
  let cause : Option Byte := if pas.any fun p => s.activeLine (s.key p) then some 0x2C else s.unstorable pas
  match cause with
  | some c => .refused c (pas.headD 0)
  | none =>
    if !(pas.any fun p => s.stamped (s.key p)) then .done (s.storeBytes pas bs)
    else
      let ctl := s.dv.ringCtl
      let size := 2 ^ s.dv.ringLog
      let tail := s.physNat (ctl + 4) 4
      let used := (tail + 2 ^ 32 - s.physNat ctl 4) % 2 ^ 32
      match s.undeliverables (addrs ctl 8), s.unstorable (addrs (s.dv.ringBase + 128 * (tail % size)) 128) with
      | some c, _ => .refused c (pas.headD 0)
      | _, some c => .refused c (pas.headD 0)
      | none, none =>
        if size ≤ used then .wait
        else
          let serial := Config.serial.toNat
          let mark := frameMark serial s.dv.time.toNat req
          let out := markFrame mark s.dv.mkey req frame width height bs
          let rec_ := stampRecord (sha256 out) req frame serial s.dv.time.toNat mark
          let s1 := s.storeBytes pas out
          let s2 := s1.storeBytes (addrs (s.dv.ringBase + 128 * (tail % size)) 128) rec_
          .done (s2.storeNat (ctl + 4) 4 (tail + 1))

end Sys2Proof.Machine
end

