-- ==== Sys2Proof/Machine/Pocket.lean ====
section
/-! DEFINITION. Pockets: how their entries are performed and when they drain; a generator's turn (23 R402-R406, R411;
17 R339, R350; 12 R253). -/

namespace Sys2Proof.Machine

/-! ### Performing an entry (R281, R403, R411) -/

/-- Bytes performed at their home slices at once; a refused store is a failure (R411). -/
def gperform (g : GenAt) (va : Nat) (bs : List Byte) : GM Unit := do
  let pas ← gpas g va bs.length .store
  fun s => match s.storeRefused pas with
    | some c => .error (.fault c (pas.headD 0))
    | none => match s.unstorable pas with
      | some c => .error (.fault c (pas.headD 0))
      | none => .ok ((), s.storeBytes pas bs)

/-- A brick allocated in a chunk; 0x2F where the pool is empty (R339). -/
def gallocate (g : GenAt) (d : StoreD) (rec k : Nat) : GM Nat := do
  let n ← gnat g d.fcnt 4
  if n = 0 then gfail (.fault 0x2F d.fcnt)
  else
    gperform g d.fcnt (leBytes 4 (n - 1))
    let b ← gnat g (rec + k / 8) 1
    gperform g (rec + k / 8) (leBytes 1 (b ||| 2 ^ (k % 8)))
    let i ← gnat g (d.freel + 4 * (n - 1)) 4
    gperform g (rec + 512 + 4 * k) (leBytes 4 i)
    pure i

/-- Bytes read as a drain reads them: what cannot be read is reported by its physical address (R411). -/
def gphys (g : GenAt) (va n : Nat) : GM (List Byte) := do
  let pas ← gpas g va n .load
  fun s => match gread g va n s with
    | .error (.fault c _) => .error (.fault c (pas.headD 0))
    | r => r

/-- A camera update performed: the brick allocated where it is not, the record read and written as one (R339, R350). Where its
chunk has become absent meanwhile it is outside, and counts as clipped (R349, R353). -/
def gcamPerform (g : GenAt) (store : Nat) (cam : Camera) (cell : Nat × Nat × Nat) (t w : Lane) (x : List Lane) : GM Unit := do
  let d : StoreD ← fun s => .ok (((s.graph g.graph).stores.getD store []), s)
  match ← gchunk g d cell with
  | none => fun s => .ok ((), s.updGraph g.graph fun y => y.clip (camNo (s.gen g).f))
  | some rec =>
    let b ← match ← gbrick g rec (brickOf cell) with
      | some b => pure b
      | none => gallocate g d rec (brickOf cell)
    let a := d.recordAt b (slotOf cell)
    let r ← gphys g a d.rsize
    gperform g a (camUpdate d cam r t w x)

/-- The token that waits for a save, which has been performed, is ready (R346). -/
def Gen.saved (q : Gen) (id : Nat) : Gen :=
  { q with line := q.line.map fun i => if i.wait = some id then { i with ready := true, wait := .none } else i }

/-- The bits of a mask merged into bytes. -/
def mergeBits : List Byte → List Byte → List Byte → List Byte
  | o :: os, m :: ms, d :: ds => ((o &&& ~~~m) ||| (d &&& m)) :: mergeBits os ms ds
  | _, _, _ => []

/-- One entry performed; one whose word is uncorrectable is refused with 0xB0 (R403, R411, R435). -/
def State.performEntry (s : State) (g : GraphIx) (e : PocketEntry) : Stamped :=
  let store := fun (bs : List Byte) => match s.storeRefused e.pas with
    | some c => Stamped.refused c (e.pas.headD 0)
    | none => match s.unstorable e.pas with
      | some c => .refused c (e.pas.headD 0)
      | none => .done (s.storeBytes e.pas bs)
  match e.kind with
  | .plain => store e.data
  | .release => store e.data
  | .masked m => store (mergeBits (s.bytesAt e.pas) m e.data)
  | .frame req no w h => s.egressFrame e.pas e.data req no w h
  | .save id => match store e.data with
    | .done s1 => .done (s1.updGen ⟨g, Fin.ofNat 256 e.gen⟩ (·.saved id))
    | r => r
  | .spoiled _ => .refused 0xB0 (e.pas.headD 0)
  | .camera st cam cell t w x =>
    match gcamPerform ⟨g, Fin.ofNat 256 e.gen⟩ st cam cell t w x s with
    | .ok ((), s1) => .done s1
    | .error (.fault c a) => .refused c a
    | .error (.bad c _ a) => .refused c a

/-- A store refused at its drain: it is discarded, and the cause is raised imprecise with the physical address (R411). -/
def State.refuse (s : State) (g : GraphIx) (e : PocketEntry) (c : Byte) (a : Nat) : State :=
  let at_ : GenAt := ⟨g, Fin.ofNat 256 e.gen⟩
  let i := s.genFault at_ c a
  s.raise g { i with imp := true, window := e.win }

/-- Entries performed in order, as far as the first that waits. -/
def State.drainList (s : State) (g : GraphIx) : List PocketEntry → State × List PocketEntry
  | [] => (s, [])
  | e :: r => match s.performEntry g e with
    | .done s1 => s1.drainList g r
    | .wait => (s, e :: r)
    | .refused c a => (s.refuse g e c a).drainList g r

/-- Whether an entry is performed after every other store of its window (R403). -/
def PocketEntry.last (e : PocketEntry) : Bool := match e.kind with
  | .release => true
  | .spoiled b => b
  | _ => false

/-- Some entries of a graph's pockets drained: releases last; what waits stays (R403). -/
def State.drainSome (s : State) (g : GraphIx) (which : PocketEntry → Bool) : State :=
  let x := s.graph g
  let mine := x.pocket.filter which
  let r := s.drainList g (mine.filter (fun e => !e.last) ++ mine.filter PocketEntry.last)
  r.1.updGraph g fun y => { y with pocket := r.2 ++ x.pocket.filter fun e => !which e }

/-- The windows of a graph's entries, lowest first. -/
def insertNat (n : Nat) : List Nat → List Nat
  | [] => [n]
  | m :: r => if n < m then n :: m :: r else if n = m then m :: r else m :: insertNat n r
/-- A list of numbers, sorted, without repeats. -/
def sortNat (l : List Nat) : List Nat := l.foldl (fun a n => insertNat n a) []

/-- Every entry drained, window by window, while none waits. -/
def State.drainAll (s : State) (g : GraphIx) : State :=
  (sortNat ((s.graph g).pocket.map (·.win))).foldl (fun t w =>
    if (t.graph g).pocket.any fun e => e.win < w then t else t.drainSome g fun e => e.win = w) s

/-- The log entries, snapshots and marks of windows that have ended leave (R406). -/
def Graph.tidy (x : Graph) : Graph :=
  let w := x.lowWin
  { x with
      logged := x.logged.filter fun p => w ≤ p.win
      logs := x.logs.filter fun p => w ≤ p.1
      dead := x.dead.filter (w ≤ ·)
      gens := x.gens.mapV .none fun _ q => { q with snaps := q.snaps.filter fun p => w ≤ p.win } }

/-- The pockets drain the lowest window that has ended and holds stores, unless a fault stands (R403, R407). -/
def State.drainEnded (s : State) (g : GraphIx) : State :=
  let x := s.graph g
  if !x.raised.isEmpty || !x.noted.isEmpty then s
  else match (sortNat (x.pocket.map (·.win))).head? with
    | some w => if w < x.lowWin then (s.drainSome g fun e => e.win = w).updGraph g Graph.tidy else s.updGraph g Graph.tidy
    | none => s.updGraph g Graph.tidy

/-- POCKET_DRAIN. -/
def execPocketDrain (g : GraphIx) (s : State) : Answer := .next (s.drainEnded g)

/-- The chain that an entry's store belongs to (R403). -/
def Graph.chainOf (x : Graph) (e : PocketEntry) : Option Nat :=
  let f := (x.genOf e.gen).f
  if gClass f = 2 then some (gChain f) else none

/-- Some entries drained before their windows end: those windows are not replayable (R405). -/
def State.drainEarly (s : State) (g : GraphIx) (which : PocketEntry → Bool) : State :=
  let ws := sortNat (((s.graph g).pocket.filter which).map (·.win))
  (s.updGraph g fun x => ws.foldl Graph.kill x).drainSome g which

/-- A pocket that has filled drains its entries at once; its window is not replayable (R405). Stores of a chain leave in chain
order, so the chain's earlier ones in other pockets drain with it (R403, R404, log entry 77). -/
def State.spill (s : State) (g : GenAt) : State :=
  let n := g.gen.val
  let x := s.graph g.graph
  if x.pocketBytes n ≤ 32768 then s
  else
    let mine := x.pocket.filter fun e => e.gen = n
    -- the entries that stand before the last of this pocket's of their chain
    let early := fun (e : PocketEntry) => match x.chainOf e with
      | none => false
      | some c => ((x.pocket.dropWhile (· ≠ e)).any fun d => d.gen = n && x.chainOf d = some c)
    let s1 := s.updGraph g.graph fun x => x.kill (x.genOf n).win
    s1.drainEarly g.graph fun e => mine.contains e || early e

/-! ### A generator's turn (R253, R402) -/

/-- The cuff stage a generator's stream leads to, and its place. -/
def State.genTarget (s : State) (g : GenAt) : Option (Elt × Nat) :=
  let q := s.gen g
  if !gOen q.f then none else (s.genPeer g.graph q (gOpage q.f)).map fun e => (e, gOport q.f)

/-- Whether a generator's output is free: empty, or its token leaves (R95). -/
def State.genFree (s : State) (g : GenAt) : Bool :=
  let q := s.gen g
  q.out.nxt.isNone && (q.out.cur.isNone || (match s.genTarget g with
    | some t => (stageAt (s.site t.1).cuffs t.2).ret
    | none => false))

/-- The token at the head of what a generator delivers leaves into its output, once its reply has come (R253). One without
an input stream counts the markers it emits (R402); a stopping source halts at a stop of the cut level or D (R438). -/
def State.genDeliver (s : State) (g : GenAt) : State :=
  let q := s.gen g
  match q.line with
  | i :: r =>
    if i.ready && i.wait.isNone && s.genFree g then
      let x := s.graph g.graph
      let t := i.tok
      let h := { q.half with face := q.half.face.note (rlvlOf q.f) t, parity := if t.isStop then !q.half.parity else q.half.parity
                             skip := if t.closes then false else q.half.skip }
      let q1 := { q with line := r, out := { q.out with nxt := some t }, half := h, fin := q.fin || t.isDone }
      let x1 := x.log q.win [.token (s.genLoc g) t]
      let q2 := if gIen q.f then q1 else q1.passWin t x.win
      let stop := x.ctx = .draining && opcOf q.f = 1 && closesAt t x.cut
      s.setGraph g.graph { (x1.setGen g.gen.val { q2 with halt := q2.halt || stop }) with act := x.act + 1 }
    else s
  | [] => s

/-- Whether a generator of a graph carries out an opcode now: its graph runs, no fault stands, nothing is frozen. -/
def State.genRuns (s : State) (g : GenAt) (op : Nat) : Bool :=
  let x := s.graph g.graph
  let q := x.genOf g.gen.val
  x.live && x.st = .run && x.raised.isEmpty && x.noted.isEmpty && !x.frozen &&
  (x.ctx = .running || x.ctx = .draining) && !q.parts.isEmpty && opcOf q.f = op && !q.halt

/-- The drain of a generator that has emitted an error token of its own (R102, R254). -/
def gdrain (g : GenAt) : GM Unit := do
  let q ← ggen g
  match q.inq.toks.head? with
  | none => pure ()
  | some t =>
    gtake g
    if t.isDone then gupd g fun q => { q.push doneTok true with half := { q.half with drain := none }, part := .empty }
    else pure ()

/-- A failed firing as it shows: a fault raised, or an error token (R254, R255, R309). -/
def State.genFail (s : State) (g : GenAt) (e : GErr) : Answer :=
  match e with
  | .fault c va => .next (s.raise g.graph (s.genFault g c va))
  | .bad c d va => .next (s.genBad g c d va)

/-- The tile elements of a graph's ACTIVE planes: the sites 2 and 13 that carry a tile frame (R83, R137). -/
def State.tileElts (s : State) (g : GraphIx) : List Elt :=
  (s.graph g).pages.flatMap fun p => match s.activePlane g p.2.1 p.2.2 with
    | some pl => ([2, 13] : List (Fin 16)).filterMap fun i =>
        let e : Elt := ⟨p.2.1, p.2.2, i, pl⟩
        if (s.site e).tileFr.isSome then some e else none
    | none => []

/-- Windows that have just opened log the state of every stage of the graph, 8 bytes each (R406). -/
def State.logStages (s : State) (g : GraphIx) : State :=
  let x := s.graph g
  if x.logs.any fun l => l.2.2.isEmpty then
    let els := s.tileElts g
    if els.isEmpty then s
    else
      let tiles := els.map fun e => (eltKey e, (s.site e).tile)
      let n := (els.map fun e => ((s.site e).tileFr.map tileDepth).getD 0).foldl (· + ·) 0
      s.setGraph g (x.logs.foldl (fun y l => if l.2.2.isEmpty then
        { y.log l.1 [.state (8 * n)] with logs := y.logs.map fun m => if m.1 = l.1 then (m.1, m.2.1, tiles) else m } else y) x)
  else s

/-- The next plane of signed digits that is owed is fetched: its token leaves once the reply has come (R162, R277). -/
def gfetch (g : GenAt) : GM Unit := do
  let q ← ggen g
  match q.line.find? fun i => i.owed.isSome with
  | some i => match i.owed with
    | some (j, els) =>
      let t ← gplane g els j
      let rec put : List Item → List Item
        | [] => []
        | k :: r => if k = i then .of t false :: r else k :: put r
      gupd g fun q => { q with line := put q.line }
    | none => pure ()
  | none => pure ()

/-- While a noted fault stands, a sink takes what still reaches it and stores nothing of it: error tokens that replay would meet
there are noted, each against its window (R407, R408, log entry 54). -/
def State.sinkTurn (s : State) (g : GenAt) : State :=
  let x := s.graph g.graph
  let q := x.genOf g.gen.val
  if !(x.live && x.st = .run && !x.noted.isEmpty && x.raised.isEmpty && !x.frozen && gIen q.f && !gOen q.f) then s
  else match q.inq.toks, q.scq.toks with
    | t :: _, _ =>
      let s1 := s.setGraph g.graph { (x.setGen g.gen.val ({ q with inq := q.inq.pop }.passWin t x.win)) with act := x.act + 1 }
      if t.err then s1.sinkFault g t else s1
    | [], t :: _ =>
      let s1 := s.setGraph g.graph { (x.setGen g.gen.val { q with scq := q.scq.pop }) with act := x.act + 1 }
      if t.err then s1.sinkFault g t else s1
    | [], [] => s

/-- One turn of a generator: a token is delivered, a step of its opcode is made (R253), unless the token stopped it (R438). -/
def State.genTurn (s : State) (g : GenAt) (op : Nat) (plan : GM Unit) : Answer :=
  if !s.genRuns g op then .next (if opcOf (s.gen g).f = op then s.sinkTurn g else s)
  else
    let s1 := s.genDeliver g
    match (if (s1.gen g).line.any (·.owed.isSome) then gfetch g else if (s1.gen g).halt then pure ()
        else if (s1.gen g).half.drain.isSome then gdrain g else plan) s1 with
    | .error e => s1.genFail g e
    | .ok ((), s2) =>
      let moved := s2.gen g ≠ s1.gen g || (s2.graph g.graph).pocket.length ≠ (s1.graph g.graph).pocket.length
      let s3 := if moved then s2.updGraph g.graph fun x => { x with act := x.act + 1 } else s2
      .next ((s3.logStages g.graph).spill g)

/-- The next token of the input, unless it is an error token; nothing is issued while 64 requests stand (R253, R309). -/
def ginput (g : GenAt) (k : Token → GM Unit) : GM Unit := do
  let q ← ggen g
  match q.inq.toks.head? with
  | none => pure ()
  | some t => if !q.mayIssue then pure () else if t.err then gerror g t else k t

/-- A stop or D of the input emitted in its place (R309). -/
def gpass (g : GenAt) (t : Token) : GM Unit := do
  gtake g
  let q ← ggen g
  if gOen q.f then gemit g t.bare else pure ()

/-- The fields of a generator's unfinished group changed. -/
def gpart (g : GenAt) (f : GenPart → GenPart) : GM Unit := gupd g fun q => { q with part := f q.part }

end Sys2Proof.Machine
end

