-- ==== Sys2Proof/Machine/Gens.lean ====
section
/-! DEFINITION. The address generators: affine, indexed, row, bag and chained access (16 R309-R319; 13 R275-R277). -/

namespace Sys2Proof.Machine

/-! ### Elements delivered (R156, R277, R312) -/

/-- The header of a group of an SD format: the scale codes of the elements' blocks (R162, R277). -/
def gheader (g : GenAt) (els : List (Nat × Int)) : GM Token := do
  let hdr ← els.mapM fun (p : Nat × Int) => do return (p.1, BitVec.ofNat 40 (← gsdScale g p.2))
  pure (laneTokOf hdr)

/-- The tokens that deliver elements, by lane, in one access: one value token, or a group of an SD format (R162, R277). -/
def gtokens (g : GenAt) (els : List (Nat × Int)) : GM (List Token) := do
  let q ← ggen g
  match q.fmt with
  | .sd d =>
    let hdr ← gheader g els
    let planes ← (List.range d).mapM (gplane g els)
    pure (hdr :: planes ++ [stopTok 0])
  | _ => do return [← gtoken g els]

/-- Elements requested: their token leaves once the reply has come. Of a group of an SD format the header is requested now, a plane
in each turn that follows, so that a skip request stops the fetch of the rest (R165, R277). -/
def gdeliver (g : GenAt) (els : List (Nat × Int)) : GM Unit := do
  let q ← ggen g
  match q.fmt with
  | .sd d =>
    gload g (← gheader g els)
    gupd g fun q => { q with line := q.line ++ (List.range d).map fun j => ⟨doneTok, false, none, some (j, els)⟩ }
    gemit g (stopTok 0)
  | _ => do gload g (← gtoken g els)

/-- The elements j to j + 15 of a run of n elements, by lane (R312). -/
def runEls (off : Nat → Int) (j n : Nat) : List (Nat × Int) := (List.range (min 16 (n - j))).map fun i => (i, off (j + i))

/-- A run of elements byte for byte, packed from offset 0 in format FMT (R314, R269-R271). -/
def gpack (g : GenAt) (offs : List Int) : GM (List Byte) := do
  let q ← ggen g
  let k := q.fmt
  let n := offs.length
  let parts ← offs.zipIdx.mapM fun (p : Int × Nat) => do
    match k with
    | .sd d => do
      let c ← gsdScale g p.1
      let ds ← (List.range d).mapM fun j => do return digitCode (← gdigit g p.1 (j + 1))
      let blk := (k.place p.2).1.toNat
      let v := ds.zipIdx.foldl (fun a w => a + w.1 * 2 ^ (8 * (blk + 4 + 12 * w.2) + 3 * (p.2 % 32))) 0
      pure (v, if p.2 % 32 = 0 then c * 2 ^ (8 * blk) else 0)
    | _ => do
      let (v, c) ← graw g p.1
      let at_ := if k.byElement then k.place p.2 else ((p.2 * k.width / 8 : Nat), 0)
      pure (v * 2 ^ (8 * at_.1.toNat + at_.2),
            if k.isMx && p.2 % 32 = 0 then c * 2 ^ (8 * (k.scaleAt p.2).toNat) else 0)
  let size := match k with
    | .sd d => (n + 31) / 32 * (4 + 12 * d)
    | _ => if k.isMx then ((n + 255) / 256) * k.superBytes else (n * k.width + 7) / 8
  pure (leBytes size (parts.foldl (fun a p => a + p.1 + p.2) 0))

/-- A run on its way into a tile stage (R314). -/
def grunOut (g : GenAt) (offs : List Int) (level : Nat) : GM Unit := do
  let bs ← gpack g offs
  gupd g fun q => { q with xfer := q.xfer ++ [bs], part := { q.part with n := level } }

/-! ### AFFLD (R312-R314) -/

/-- The end of a run of level 0: the counters advance; the highest level completed, and whether the nest has ended. -/
def grunEnd (g : GenAt) : GM (Nat × Bool) := do
  let q ← ggen g
  let r := q.advance q.loop
  let last := decide (gNest q.f ≤ r.2 + 1)
  gupd g fun q => { q with loop := if last then [0, 0, 0, 0, 0, 0] else r.1, on := q.on && !last }
  pure (r.2, last)

/-- Whether every run of a stream's nest has been delivered and D is still to come: the outermost counter stands at its COUNT. -/
def Gen.owesDone (q : Gen) : Bool := gNest q.f ≠ 0 && decide (q.count (gNest q.f - 1) ≤ q.loop.getD (gNest q.f - 1) 0)

/-- One request of AFFLD. A run's stop is delivered before the next run is requested, so that windows and cuts see the
counters as they stand at that stop. -/
def gaffld (g : GenAt) : GM Unit := do
  let q ← ggen g
  if !q.on || !q.xfer.isEmpty || !q.mayIssue || q.line.any (fun i => i.tok.closes) then pure ()
  else
    gopen g
    if !gTdst q.f && q.owesDone then
      gemit g doneTok
      gupd g fun q => { q with on := false, loop := [0, 0, 0, 0, 0, 0] }
    else
    let j := q.loop.getD 0 0
    let n := if gNest q.f = 0 then 1 else q.count 0
    let off := fun (i : Nat) => q.offset (q.loop.set 0 i)
    if gTdst q.f then
      let offs := (List.range n).map off
      if gNest q.f = 0 then
        grunOut g offs 6
        gupd g fun q => { q with on := false }
      else
        let (m, last) ← grunEnd g
        grunOut g offs (if last then 6 else m)
    else
      gdeliver g (runEls off j n)
      gupd g fun q => { q with half := { q.half with firing := q.half.firing + 1 } }
      if gNest q.f = 0 then
        gemit g doneTok
        gupd g fun q => { q with on := false }
      else if j + 16 < n then gupd g fun q => { q with loop := q.loop.set 0 (j + 16) }
      else
        let (m, last) ← grunEnd g
        gemit g (stopTok m)
        if last then
          gupd g fun q => { q with on := true, loop := q.loop.set (gNest q.f - 1) (q.count (gNest q.f - 1)) }
        else pure ()

def execAffld (g : GenAt) (s : State) : Answer := s.genTurn g 0x01 (gaffld g)

/-! ### AFFST (R313, R275-R277) -/

/-- The elements that the valid lanes of a token go to, with the lanes. -/
def laneEls (els : List (Nat × Int)) (t : Token) : List (Nat × Int) := els.filter fun p => t.valid p.1

/-- A value token stored in a plain format. -/
def gstorePlain (g : GenAt) (els : List (Nat × Int)) (t : Token) : GM Unit :=
  (laneEls els t).forM fun p => gstore g p.2 (t.lane p.1)

/-- A value token stored into an MX block under the magnitude of its scale token (R276). -/
def gstoreMx (g : GenAt) (els : List (Nat × Int)) (amax : Lane) (first : Bool) (t : Token) : GM Unit := do
  let q ← ggen g
  let c := q.fmt.mxScale amax
  gevent g (first && c.2)
  (laneEls els t).forM fun p => do
    let v := q.fmt.mxStore c.1 (t.lane p.1)
    gevent g v.2
    gputBits g p.2 v.1
  let scales := ((laneEls els t).map fun p => ((gBase q.f : Int) + q.fmt.scaleAt p.2).toNat).eraseDups
  scales.forM fun a => gput g a (leBytes 1 c.1) .plain

/-- A group stored in an SD format: the scale byte, the digits, and the events of R277. -/
def gstoreSd (g : GenAt) (d : Nat) (els : List (Nat × Int)) (hdr : Token) (planes : List Token) (scale : Lane) : GM Unit := do
  let q ← ggen g
  let live := laneEls els hdr
  gevent g (decide (d < planes.length))
  ((live.map fun p => (q.elemAt p.2).1.toNat).eraseDups).forM fun a => gput g a (leBytes 4 (scale.toNat % 256)) .plain
  live.forM fun p => do
    gevent g (decide ((hdr.lane p.1).toNat % 256 ≠ scale.toNat % 256))
    (List.range d).forM fun j => do
      let v := match planes[j]? with
        | some t => sint32 (t.lane p.1)
        | none => 0
      gevent g (decide (v < -4 ∨ 3 < v))
      let bit := 3 * (p.2 % 32).toNat
      let n := spanBytes (bit % 8) 3
      gput g ((q.elemAt p.2).1.toNat + 4 + 12 * j + bit / 8) (leBytes n (digitCode v * 2 ^ (bit % 8)))
        (.masked (leBytes n (7 * 2 ^ (bit % 8))))

/-- The head of the scale stream consumed (R275). -/
def gtakeScale (g : GenAt) : GM Unit := gupd g fun q => { q with scq := q.scq.pop }

/-- A value token of AFFST in an MX format: the block's scale token first (R276). -/
def gaffstMx (g : GenAt) (els : List (Nat × Int)) (t : Token) (next : GM Unit) : GM Unit := do
  let q ← ggen g
  match q.part.first with
  | some sc =>
    gtake g
    gstoreMx g els (sc.lane 0) (q.part.n = 0) t
    gpart g fun p => if p.n = 1 then { p with first := none, n := 0 } else { p with n := p.n + 1 }
    next
  | none => match q.scq.toks.head? with
    | none => pure ()
    | some sc =>
      if sc.err then
        gtakeScale g
        fun s => .ok ((), s.sinkFault g sc)
      else if sc.closes then gshape sc
      else
        gtakeScale g
        gpart g fun p => { p with first := some sc, n := 0 }

/-- A token of AFFST in an SD format, within a group of the run (R277). -/
def gaffstSd (g : GenAt) (d : Nat) (els : List (Nat × Int)) (t : Token) (next : GM Unit) : GM Unit := do
  let q ← ggen g
  match q.part.first with
  | none => if t.kind = 0 then do gtake g; gpart g fun p => { p with first := some t, toks := [] } else gshape t
  | some hdr =>
    if t.kind = 0 then
      gtake g
      gpart g fun p => { p with toks := p.toks ++ [t] }
    else if t.isStop && t.level = 0 then
      let blk := ((els.headD (0, 0)).2 / 32).toNat + 1
      let scale := if q.part.n = blk then q.part.acc.headD 0 else hdr.lane 0
      gtake g
      gstoreSd g d els hdr q.part.toks scale
      gpart g fun p => { p with first := none, toks := [], acc := [scale], n := blk }
      next
    else gshape t

/-- The stop that closes a run, or D after the nest, matched on the scale stream of an MX format (R276). -/
def gaffstClose (g : GenAt) (t : Token) (after : GM Unit) : GM Unit := do
  let q ← ggen g
  if q.fmt.isMx then
    match q.scq.toks.head? with
    | none => pure ()
    | some sc =>
      if sc.err then
        gtakeScale g
        fun s => .ok ((), s.sinkFault g sc)
      else if sc.kind ≠ t.kind then gshape t
      else
        gtakeScale g
        gtake g
        gpart g fun p => { p with first := none, n := 0 }
        after
  else
    gtake g
    gpart g fun p => { p with n := 0 }
    after

/-- One token of AFFST (R313). -/
def gaffst (g : GenAt) : GM Unit := ginput g fun t => do
  let q ← ggen g
  if !q.on then (if t.isDone then gaffstClose g t (gupd g fun q => { q with on := true }) else gshape t)
  else
    let j := q.loop.getD 0 0
    let nest := gNest q.f
    let n := if nest = 0 then 1 else q.count 0
    let els := runEls (fun i => q.offset (q.loop.set 0 i)) j n
    let next : GM Unit := gupd g fun q =>
      if nest = 0 then { q with on := false } else { q with loop := q.loop.set 0 (j + 16) }
    if j < n then
      match q.fmt with
      | .sd d => gaffstSd g d els t next
      | k =>
        if t.closes then gshape t
        else if k.isMx then gaffstMx g els t next
        else
          gtake g
          gstorePlain g els t
          next
    else
      let r := q.advance q.loop
      if t.isStop && t.level = r.2 then gaffstClose g t (do let _ ← grunEnd g; pure ()) else gshape t

def execAffst (g : GenAt) (s : State) : Answer := s.genTurn g 0x02 (gaffst g)

/-! ### Indices (R254, R311, R315) -/

/-- The offset of the element that an index names, where it lies in its extent and in range (R310, R311). -/
def Gen.indexed (q : Gen) (level : Nat) (k : Int) : Option Int :=
  let off := k * q.stride level
  if 0 ≤ k ∧ k < (q.count level : Int) ∧ q.elemOk off then some off else .none

/-- The elements that lanes of an index token name, or the first offending lane (R254). -/
def Gen.elements (q : Gen) (t : Token) (lanes : List Nat) : List (Nat × Int) ⊕ Nat :=
  match lanes.find? fun i => (q.indexed 0 (sint32 (t.lane i))).isNone with
  | some i => .inr i
  | .none => .inl (lanes.map fun i => (i, (q.indexed 0 (sint32 (t.lane i))).getD 0))

/-- The valid lanes of a token below n. -/
def Token.lanesBelow (t : Token) (n : Nat) : List Nat := (List.range n).filter t.valid

/-- GATH (R315). -/
def ggath (g : GenAt) : GM Unit := ginput g fun t => do
  let q ← ggen g
  if t.closes then gpass g t
  else match q.elements t (t.lanesBelow 16) with
    | .inr i => gfail (.bad 0x26 i (q.addrOf (sint32 (t.lane i) * q.stride 0)))
    | .inl els =>
      gopen g
      gdeliver g els
      gtake g

def execGath (g : GenAt) (s : State) : Answer := s.genTurn g 0x03 (ggath g)

/-- The value part of a pair: a value token, or a group of an SD format (R277, R315). `use` gets what was consumed. -/
def gpairValue (g : GenAt) (t : Token) (use : List Token → GM Unit) : GM Unit := do
  let q ← ggen g
  match q.fmt with
  | .sd _ =>
    if t.kind = 0 then
      gtake g
      gpart g fun p => { p with toks := p.toks ++ [t] }
    else if t.isStop && !q.part.toks.isEmpty then do
      use q.part.toks
      gtake g
    else gshape t
  | _ => if t.kind = 0 then do use [t]; gtake g else gshape t

/-- The lanes in which an index token and its value act (R315). -/
def pairLanes (idx : Token) (vals : List Token) (n : Nat) : List Nat :=
  (idx.lanesBelow n).filter fun i => (vals.headD idx).valid i

/-- The lanes of a pair stored, in lane order (R315); those of an SD format as one group under the scale in lane 0 of its header
(R277). -/
def gstorePair (g : GenAt) (els : List (Nat × Int)) (vals : List Token) : GM Unit := do
  let q ← ggen g
  let v := vals.headD doneTok
  match q.fmt with
  | .sd d => gstoreSd g d els v vals.tail (v.lane 0)
  | _ => els.forM fun p => gstore g p.2 (v.lane p.1)

/-- SCAT (R315). -/
def gscat (g : GenAt) : GM Unit := ginput g fun t => do
  let q ← ggen g
  match q.part.first with
  | none =>
    if t.closes then gpass g t
    else
      gtake g
      gpart g fun p => { p with first := some t, toks := [] }
  | some idx => gpairValue g t fun vals =>
      match q.elements idx (pairLanes idx vals 16) with
      | .inr i => gfail (.bad 0x26 i (q.addrOf (sint32 (idx.lane i) * q.stride 0)))
      | .inl els => do
        gstorePair g els vals
        gpart g fun p => { p with first := none, toks := [] }

def execScat (g : GenAt) (s : State) : Answer := s.genTurn g 0x04 (gscat g)

/-! ### ROWG (R316) -/

/-- The elements of a row: element j of row r. -/
def Gen.rowOff (q : Gen) (r : Int) (j : Nat) : Int := r * q.stride 1 + j * q.stride 0
/-- Whether a row lies in its extent and in range (R310, R311). -/
def Gen.rowOk (q : Gen) (r : Int) : Bool :=
  decide (0 ≤ r ∧ r < (q.count 1 : Int)) && q.elemOk (q.rowOff r 0) && q.elemOk (q.rowOff r (q.count 0 - 1))

/-- ROWG: one token of a row, or one transfer, in a turn. The lane in progress and the next element stand in `part.n`. -/
def growg (g : GenAt) : GM Unit := ginput g fun t => do
  let q ← ggen g
  if t.isDone then (if q.xfer.isEmpty then gpass g t else pure ())
  else if t.closes then do
    gtake g
    if gOen q.f then gemit g (stopTok (min 5 (t.level + 1))) else pure ()
  else match (t.lanesBelow 16).find? fun i => !q.rowOk (sint32 (t.lane i)) with
    | some i => gfail (.bad 0x26 i (q.addrOf (q.rowOff (sint32 (t.lane i)) 0)))
    | none =>
      gopen g
      let lane := q.part.n / 2 ^ 32
      let j := q.part.n % 2 ^ 32
      match (t.lanesBelow 16).find? fun i => lane ≤ i with
      | none =>
        gpart g fun p => { p with n := 0 }
        gtake g
      | some i =>
        let r := sint32 (t.lane i)
        let cnt := q.count 0
        if gTdst q.f then
          if q.xfer.isEmpty then
            let bs ← gpack g ((List.range cnt).map (q.rowOff r))
            gupd g fun q => { q with xfer := [bs], part := { q.part with n := (i + 1) * 2 ^ 32 } }
          else pure ()
        else
          gdeliver g (runEls (q.rowOff r) j cnt)
          if j + 16 < cnt then gpart g fun p => { p with n := i * 2 ^ 32 + j + 16 }
          else
            gemit g (stopTok 0)
            gpart g fun p => { p with n := (i + 1) * 2 ^ 32 }

def execRowg (g : GenAt) (s : State) : Answer := s.genTurn g 0x05 (growg g)

/-! ### BAGSUM and the hot-row map (R317, R318) -/

/-- HEN of part 3 (R318). -/
def Gen.hotEn (q : Gen) : Bool := q.p3.getLsbD 239

/-- The tile bytes and frame of the hot-row map, if the page stands on an ACTIVE plane (R318). -/
def State.hotTile (s : State) (g : GenAt) : Option (SMap Byte × FrameBits) :=
  let p := (s.gen g).p3
  ((s.graph g.graph).place (fld p 233 6)).bind fun cr =>
    (s.genTilePlane g.graph (s.gen g) (fld p 233 6)).bind fun pl =>
      let e : Elt := ⟨cr.1, cr.2, Fin.ofNat 16 (fld p 229 4), pl⟩
      (s.site e).tileFr.map fun f => (s.tiles.get [] (siteKey e.core e.region e.site), f)

/-- The copy of the map to use, chosen from both headers: at each invocation marker that is consumed, and before the first index
(R318). -/
def ghotCopy (g : GenAt) : GM Unit := fun s =>
  match if (s.gen g).hotEn then s.hotTile g else none with
  | none => .ok ((), s)
  | some (mem, f) =>
    let gen := fun i => leNat (mem.getN 0 (stageOff f i) 2)
    let d := (gen 1 + 2 ^ 16 - gen 0) % 2 ^ 16
    .ok ((), s.updGen g fun q => { q with hot := some (if 1 ≤ d ∧ d < 2 ^ 15 then 1 else 0) })

/-- The address of a row's copy, where the map holds it (R318). -/
def ghotRow (g : GenAt) (r : Int) : GM (Option Nat) := fun s =>
  let q := s.gen g
  if !q.hotEn then .ok (none, s)
  else match s.hotTile g with
    | none => .ok (none, s)
    | some (mem, f) =>
      let o := stageOff f (q.hot.getD 0)
      let n := min (leNat (mem.getN 0 (o + 2) 2)) ((tileBuf f - 16) / 16)
      let hit := (List.range n).find? fun j => (leNat (mem.getN 0 (o + 16 + 16 * j) 4) : Int) = r
      .ok (hit.map fun j => leNat (mem.getN 0 (o + 24 + 16 * j) 8) % 2 ^ 52, s)

/-- A generator with the same format and strides from another base (R318). -/
def Gen.withBase (q : Gen) (a : Nat) : Gen :=
  { q with parts := q.parts.set 0 0 (BitVec.ofNat 256 (q.f.toNat - gBase q.f * 2 ^ 121 + a * 2 ^ 121)) }

/-- The lanes of a row, read from its copy or from BASE (R317, R318). -/
def growLanes (g : GenAt) (r : Int) (copy : Option Nat) : GM (List Lane) := do
  let q ← ggen g
  match copy with
  | some a =>
    gupd g (·.withBase a)
    let vs ← (List.range (q.count 0)).mapM fun (j : Nat) => gelem g ((j : Int) * q.stride 0)
    gupd g fun p => { p with parts := q.parts }
    pure vs
  | none => (List.range (q.count 0)).mapM fun j => gelem g (q.rowOff r j)

/-- Whether a row of a bag lies in its extent, and its copy or else the row itself in range (R310, R311, R318). -/
def Gen.bagRowOk (q : Gen) (r : Int) : Option Nat → Bool
  | some a => decide (0 ≤ r ∧ r < (q.count 1 : Int)) && (q.withBase a).elemOk 0 &&
      (q.withBase a).elemOk (((q.count 0 - 1 : Nat) : Int) * q.stride 0)
  | .none => q.rowOk r

/-- The output row of a bag (R317). -/
def gbagRow (g : GenAt) : GM Unit := do
  let q ← ggen g
  let cnt := q.count 0
  let n := q.part.n
  let mean := (immOf q.f).getLsbD 0
  let r := divDy ⟨1, 0⟩ ⟨n, 0⟩ .rne
  let out := (List.range cnt).map fun j =>
    let v := q.part.acc.getD j 0
    if n = 0 then 0 else if mean then fmul v r .rne else v
  (List.range ((cnt + 15) / 16)).forM fun k =>
    let m := min 16 (cnt - 16 * k)
    gemit g (valueTok (BitVec.ofNat 16 (2 ^ m - 1)) false fun i => out.getD (16 * k + i) 0)
  gpart g fun p => { p with acc := [], n := 0, seen := false }

/-- BAGSUM (R317). -/
def gbagsum (g : GenAt) : GM Unit := ginput g fun t => do
  let q ← ggen g
  if t.closes then
    if t.isStop || q.part.seen then gbagRow g else pure ()
    gtake g
    if t.isDone && q.part.seen then gemit g (stopTok 0) else pure ()
    gemit g t.bare
    let marker ← fun s => .ok (closesAt t (s.graph g.graph).inv, s)
    if marker then ghotCopy g else pure ()
  else
    if q.hot.isNone then ghotCopy g else pure ()
    let rows ← (t.lanesBelow 16).mapM fun (i : Nat) => do
      let r := sint32 (t.lane i)
      return (i, r, ← ghotRow g r)
    match rows.find? fun (p : Nat × Int × Option Nat) => !q.bagRowOk p.2.1 p.2.2 with
    | some p => gfail (.bad 0x26 p.1 (match p.2.2 with | some a => a | none => q.addrOf (q.rowOff p.2.1 0)))
    | none =>
      gopen g
      rows.forM fun (p : Nat × Int × Option Nat) => do
        let vs ← growLanes g p.2.1 p.2.2
        gpart g fun u => { u with acc := vs.zipIdx.map (fun v => fadd (u.acc.getD v.2 0) v.1 .rne), n := u.n + 1, seen := true }
      gtake g

def execBagsum (g : GenAt) (s : State) : Answer := s.genTurn g 0x06 (gbagsum g)

/-! ### Chained access (R283, R319) -/

/-- The wave of a coordinate token (R283). -/
def waveOf (t : Token) : Nat := (t.lane 15).toNat % 2 ^ 16

/-- An entry on its way to the ordering buffer; where `wait`, an item of the output waits for it (R283, R319). -/
def gentry (g : GenAt) (wave : Nat) (idx : Option Token) (vals : List Token) (wait : Bool) : GM Unit := fun s =>
  let x := s.graph g.graph
  let n := g.gen.val
  let q := x.genOf n
  let e : Entry := ⟨x.nextId, n, wave, gSeq q.f, gPred q.f, gSucc q.f, idx, vals⟩
  let q1 := if wait then { q with line := q.line ++ [.of (idx.getD doneTok) false (some x.nextId)] } else q
  .ok ((), s.setGraph g.graph { (x.setGen n q1) with
    nextId := x.nextId + 1
    chains := x.chains.upd .idle (gChain q.f) fun c => { c with way := c.way ++ [e] } })

/-- An index error of a chained access: its entry performs nothing, and the error shows (R319). -/
def gchainBad (g : GenAt) (wave : Nat) (lane : Nat) (va : Nat) : GM Unit := do
  gentry g wave none [] false
  fun s => .ok ((), s.genBad g 0x26 lane va)

/-- CHLD (R319). -/
def gchld (g : GenAt) : GM Unit := ginput g fun t => do
  let q ← ggen g
  if t.closes then gpass g t
  else if !t.valid 15 then gfail (.bad 0x44 15)
  else match q.elements t (t.lanesBelow 15) with
    | .inr i => gchainBad g (waveOf t) i (q.addrOf (sint32 (t.lane i) * q.stride 0))
    | .inl _ =>
      gopen g
      gentry g (waveOf t) (some t) [] true
      gtake g

def execChld (g : GenAt) (s : State) : Answer := s.genTurn g 0x08 (gchld g)

/-- CHST and CHAMO: an index token and its value make one entry (R315, R319). -/
def gchpair (g : GenAt) (wait : Bool) : GM Unit := ginput g fun t => do
  let q ← ggen g
  match q.part.first with
  | none =>
    if t.closes then gpass g t
    else if !t.valid 15 then gfail (.bad 0x44 15)
    else
      gtake g
      gpart g fun p => { p with first := some t, toks := [] }
  | some idx => gpairValue g t fun vals => do
      gpart g fun p => { p with first := none, toks := [] }
      match q.elements idx (pairLanes idx vals 15) with
      | .inr i => gchainBad g (waveOf idx) i (q.addrOf (sint32 (idx.lane i) * q.stride 0))
      | .inl _ => gentry g (waveOf idx) (some idx) vals wait

def execChst (g : GenAt) (s : State) : Answer := s.genTurn g 0x09 (gchpair g false)
def execChamo (g : GenAt) (s : State) : Answer := s.genTurn g 0x0A (gchpair g true)

/-- MNOP (R319). -/
def gmnop (g : GenAt) : GM Unit := ginput g fun t => do
  if t.closes then gpass g t
  else if !t.valid 15 then gfail (.bad 0x44 15)
  else
    gtake g
    gentry g (waveOf t) none [] false

def execMnop (g : GenAt) (s : State) : Answer := s.genTurn g 0x0B (gmnop g)

end Sys2Proof.Machine
end

