-- ==== Sys2Proof/Machine/Camera.lean ====
section
/-! DEFINITION. The camera generators: CAMLD, CAMG, CAMR and CAMS (17 R341-R353). -/

namespace Sys2Proof.Machine

/-- The descriptor of the store that a camera names. -/
def Graph.storeOf (x : Graph) (c : Camera) : StoreD := x.stores.getD c.store []

/-- A computation in a state with other bytes in memory, whose memory is restored afterwards. -/
def gunder {α : Type} (f : State → State) (m : GM α) : GM α := fun s => match m (f s) with
  | .ok (a, s1) => .ok (a, { s1 with mem := s.mem, repair := s.repair })
  | .error e => .error e

/-! ### CAMLD (R346) -/

/-- One token of CAMLD. The token of a save leaves once its store has drained: then it is performed (R281, R346). -/
def gcamld (g : GenAt) : GM Unit := ginput g fun t => do
  let q ← ggen g
  if t.closes then gpass g t
  else if !t.valid 0 then gshape t
  else
    let k := sint32 (t.lane 0)
    let a : Int := gBase q.f + 128 * k
    let cam := camNo q.f
    if !(decide (0 ≤ k ∧ k < 2 ^ 20) && vaOk a 128) then gfail (.bad 0x26 0 (a % (2 : Int) ^ 52).toNat)
    else
      gopen g
      let done := valueTok 1 false fun _ => BitVec.ofNat 40 cam
      if q.f.getLsbD 4 then
        let img ← fun s => .ok (((s.graph g.graph).camera cam), s)
        let id ← fun s => .ok ((s.graph g.graph).nextId, s)
        gput g a.toNat img (.save id)
        fun s => .ok ((), s.updGraph g.graph fun x =>
          let y := x.genOf g.gen.val
          { x.setGen g.gen.val { y with line := y.line ++ [.of done false (some id)] } with
            nextId := id + 1
            cams := if q.f.getLsbD 5 then x.cams.set Camera.zero cam (img.take 112 ++ List.replicate 4 0 ++ img.drop 116) else x.cams })
      else
        let img ← gread g a.toNat 128
        let n ← fun s => .ok ((s.graph g.graph).stores.length, s)
        if camOk n img then
          fun s => .ok ((), s.updGraph g.graph fun x => { x with cams := x.cams.set Camera.zero cam img })
        else gfail (.bad 0x77 0)
        gload g done
      gtake g

def execCamld (g : GenAt) (s : State) : Answer := s.genTurn g 0x10 (gcamld g)

/-! ### Reading a cell (R338, R347) -/

/-- A header token and its payload (R347). -/
def camTokens (d : StoreD) (status : Nat) (depth conf : Lane) (writer frame : Nat) (pay : List Lane) (fill : Bool) : List Token :=
  let hdr := valueTok 0x1F false fun i => match i with
    | 0 => BitVec.ofNat 40 status | 1 => depth | 2 => conf | 3 => BitVec.ofNat 40 writer | _ => BitVec.ofNat 40 frame
  hdr :: (List.range ((d.plen + 15) / 16)).map fun k =>
    let m := min 16 (d.plen - 16 * k)
    valueTok (BitVec.ofNat 16 (2 ^ m - 1)) fill fun i => pay.getD (16 * k + i) 0

/-- The tokens of a coordinate that hits no record (R347). -/
def camMiss (d : StoreD) (status : Nat) : List Token :=
  camTokens d status (wInf false) 0 0 0 (List.replicate d.plen d.fill) true

/-- The payload of a record (R347). -/
def recPayload (d : StoreD) (r : List Byte) : List Lane :=
  (List.range d.plen).map fun i =>
    let v := d.pfmt.load (byteNat r (16 + d.ebytes * i) d.ebytes) 0
    if d.rule = 3 then fdiv (readW40 v) (readW40 (byteF32 r 0)) else v

/-- The tokens of a record that is hit, with the depth that lane 1 reports. -/
def camHit (d : StoreD) (r : List Byte) (depth : Lane) : List Token :=
  camTokens d 0 depth (byteF32 r 0) (byteNat r 8 1) (byteNat r 10 2) (recPayload d r) false

/-- The first invalid or NaN lane of a coordinate token among n (R344). -/
def badLane (t : Token) (n : Nat) : Option Nat := (List.range n).find? fun i => !t.valid i || readW40 (t.lane i) = .nan

/-- The tokens of CAMG for one coordinate (R347). -/
def gcamgView (g : GenAt) (c : Camera) (d : StoreD) (occ : Bool) (u v t : Lane) : GM (List Token) := do
  if !inView c u v t then pure (camMiss d 2)
  else match cellsOf d (pointOf c u v t) with
    | none => pure (camMiss d 2)
    | some cell => match ← gchunk g d cell with
      | none => pure (camMiss d 2)
      | some rec =>
        let first : Found ← if !occ then pure none else
          match rayFor c d u v, cellsOf d (pointOf c u v c.near), laneDy t with
          | some y, some c0, some lim =>
            gmarch g y lim (fun ce s => ce ≠ cell && Quot.lt s ⟨lim, ⟨1, 0⟩⟩) 256 c0 ⟨y.near, ⟨1, 0⟩⟩
          | _, _, _ => pure none
        match first with
        | some (ce, r) => pure (camTokens d 3 (viewDepth c d ce) (byteF32 r 0) (byteNat r 8 1) (byteNat r 10 2)
            (List.replicate d.plen d.fill) true)
        | none => match ← grecord g d rec cell with
          | some (_, r) => pure (if recOcc r then camHit d r (byteF32 r 4) else camMiss d 1)
          | none => pure (camMiss d 1)

/-- The tokens of CAMR for one pixel (R348). -/
def gcamrView (g : GenAt) (c : Camera) (d : StoreD) (u v : Lane) : GM (List Token) := do
  if !inView c u v c.near then pure (camMiss d 2)
  else match cellsOf d (pointOf c u v c.near) with
    | none => pure (camMiss d 2)
    | some c0 => match ← gchunk g d c0 with
      | none => pure (camMiss d 2)
      | some _ => match rayFor c d u v, laneDy c.far with
        | some y, some lim =>
          match ← gmarch g y lim (fun _ _ => true) 256 c0 ⟨y.near, ⟨1, 0⟩⟩ with
          | some (ce, r) => pure (camHit d r (viewDepth c d ce))
          | none => pure (camMiss d 1)
        | _, _ => pure (camMiss d 1)

/-- The camera and store that a generator uses, and whether the camera keeps to R340. -/
def gcamera (g : GenAt) : GM (Camera × StoreD × Bool) := fun s =>
  let x := s.graph g.graph
  let c : Camera := (s.gen g).cam
  .ok ((c, x.storeOf c, camOk x.stores.length c), s)

/-- The stops of a camera gather (R347). -/
def gcamStop (g : GenAt) (t : Token) : GM Unit := do
  gtake g
  gemit g (if t.isDone then doneTok else stopTok (min 5 (t.level + 1)))

/-- CAMG: unchained at once, chained through its entry (R345, R347). -/
def gcamg (g : GenAt) : GM Unit := ginput g fun t => do
  let q ← ggen g
  let (c, d, ok) ← gcamera g
  if t.closes then gcamStop g t
  else
    let chained := gClass q.f = 2
    let bad : Option GErr := match badLane t 3 with
      | some i => some (.bad 0x07 i)
      | none => if ok then none else some (.bad 0x77 0)
    if chained && !t.valid 15 then gfail (.bad 0x44 15)
    else match bad with
      | some e =>
        if chained then
          gentry g (waveOf t) none [] false
          fun s => .ok ((), match e with | .bad cause n va => s.genBad g cause n va | _ => s)
        else gfail e
      | none =>
        gopen g
        if chained then gentry g (waveOf t) (some t) [] true
        else
          let ts ← gcamgView g c d (q.f.getLsbD 4) (t.lane 0) (t.lane 1) (t.lane 2)
          ts.forM (gload g)
          gemit g (stopTok 0)
        gtake g

def execCamg (g : GenAt) (s : State) : Answer := s.genTurn g 0x11 (gcamg g)

/-- CAMR (R348). -/
def gcamr (g : GenAt) : GM Unit := ginput g fun t => do
  let (c, d, ok) ← gcamera g
  if t.closes then gcamStop g t
  else match badLane t 2 with
    | some i => gfail (.bad 0x07 i)
    | none =>
      if !ok then gfail (.bad 0x77 0)
      else
        gopen g
        let ts ← gcamrView g c d (t.lane 0) (t.lane 1)
        ts.forM (gload g)
        gemit g (stopTok 0)
        gtake g

def execCamr (g : GenAt) (s : State) : Answer := s.genTurn g 0x12 (gcamr g)

/-! ### CAMS (R349, R350) -/

/-- A brick of a store, by chunk and k (R338). -/
abbrev BrickKey := Nat × Nat × Nat × Nat
def brickKey (c : Nat × Nat × Nat) : BrickKey := (c.1 / 128, c.2.1 / 128, c.2.2 / 128, brickOf c)

/-- The cells whose updates stand in pockets without a brick, one for each brick: of every graph that uses the store (R339). -/
def State.pendingCells (s : State) (asid : Byte) (d : StoreD) : List (Nat × Nat × Nat) :=
  let all := s.graphs.flatMap fun (y : Nat × Graph) => if y.2.asid ≠ asid then [] else y.2.pocket.filterMap fun e => match e.kind with
    | .camera st _ c _ _ _ => if y.2.stores.getD st [] = d && e.pas.isEmpty then some c else none
    | _ => none
  all.foldl (fun l c => if l.any fun b => brickKey b = brickKey c then l else l ++ [c]) []

/-- The bricks that those updates will still allocate: those that have not been allocated meanwhile (R339). -/
def gpending (g : GenAt) (d : StoreD) : GM (List BrickKey) := do
  let cells ← fun s => .ok (s.pendingCells (s.graph g.graph).asid d, s)
  let keys ← cells.mapM fun (c : Nat × Nat × Nat) => do
    match ← gchunk g d c with
    | none => pure none
    | some rec => return if (← gbrick g rec (brickOf c)).isNone then some (brickKey c) else none
  pure (keys.filterMap id)

/-- An update issued: outside it counts as clipped, inside it enters the pocket; the brick pool is checked at issue
(R339, R349, R403). -/
def gcamIssue (g : GenAt) (coord : Token) (pay : List Token) : GM Unit := do
  let q ← ggen g
  let (c, d, _) ← gcamera g
  let u := coord.lane 0
  let v := coord.lane 1
  let t := coord.lane 2
  let outside : GM Unit := fun s => .ok ((), s.updGraph g.graph fun x => x.clip (camNo q.f))
  let x : List Lane := (List.range d.plen).map fun i => match pay[i / 16]? with
    | some p => if p.valid (i % 16) then p.lane (i % 16) else 0
    | none => 0
  if !inView c u v t then outside
  else match cellsOf d (pointOf c u v t) with
    | none => outside
    | some cell => match ← gchunk g d cell with
      | none => outside
      | some rec =>
        let pas ← match ← gbrick g rec (brickOf cell) with
          | some b => gpas g (d.recordAt b (slotOf cell)) d.rsize .store
          | none => do
            let n ← gnat g d.fcnt 4
            let pend ← gpending g d
            if !pend.contains (brickKey cell) && decide (n ≤ pend.length) then gfail (.fault 0x2F d.fcnt) else pure []
        fun s =>
          let y := (s.graph g.graph).openWin g.gen.val
          let e : PocketEntry := ⟨g.gen.val, (y.genOf g.gen.val).win, pas, [], .camera c.store c cell t (coord.lane 3) x⟩
          .ok ((), s.setGraph g.graph { y with pocket := y.pocket ++ [e] })

/-- CAMS: the coordinate, its payload tokens, then S0; a higher stop closes an update too, as it does in the program of 18
(R349, log entry 13). -/
def gcams (g : GenAt) : GM Unit := ginput g fun t => do
  let q ← ggen g
  let (_, d, ok) ← gcamera g
  let chained := gClass q.f = 2
  match q.part.first with
  | none =>
    if t.closes then gpass g t
    else if chained && !t.valid 15 then gfail (.bad 0x44 15)
    else match badLane t 4 with
      | some i =>
        if chained then gentry g (waveOf t) none [] false else pure ()
        fun s => .ok ((), s.genBad g 0x07 i)
      | none =>
        if !ok then
          if chained then gentry g (waveOf t) none [] false else pure ()
          fun s => .ok ((), s.genBad g 0x77 0)
        else
          gtake g
          gpart g fun p => { p with first := some t, toks := [] }
  | some coord =>
    if q.part.toks.length < (d.plen + 15) / 16 then
      if t.closes then gshape t
      else
        gtake g
        gpart g fun p => { p with toks := p.toks ++ [t] }
    else if t.isStop then
      if chained then gentry g (waveOf coord) (some coord) q.part.toks false
      else gcamIssue g coord q.part.toks
      gpart g fun p => { p with first := none, toks := [] }
      gtake g
    else gshape t

def execCams (g : GenAt) (s : State) : Answer := s.genTurn g 0x13 (gcams g)

end Sys2Proof.Machine
end

