-- ==== Sys2Proof/Machine/Operands.lean ====
section
/-! DEFINITION. The operand forms of the scalar instructions: immediates, effective addresses and targets (03 R48, R53;
04 R62-R73; 01 R22, R28). -/

namespace Sys2Proof.Machine

/-- sext of a 12-bit immediate (R65, R72). -/
def imm12 (i : BitVec 12) : Word := i.signExtend 64
/-- The shifted upper immediate of LUI and PCREL (R67). -/
def imm20u (i : BitVec 20) : Word := (i ++ (0 : BitVec 12)).signExtend 64
/-- The byte offset of JAL (R70). -/
def off20 (i : BitVec 20) : Word := i.signExtend 64 * 4
/-- The byte offset of a branch (R69). -/
def off14 (i : BitVec 14) : Word := i.signExtend 64 * 4
/-- The count of an immediate shift (R66). -/
def shamt (n : BitVec 6) : Nat := n.toNat

/-- The effective address of a load, a store or JALR: the base's old value plus the offset, modulo 2^64 (R22, R71-R73). -/
def State.ea (s : State) (a : Reg) (i : BitVec 12) : Word := s.reg a + imm12 i

/-- A target lies in the virtual range (R22). -/
def targetOk (t : Word) : Bool := t.toNat < 2 ^ 52

/-- A jump to t; out of range it traps with TVAL = t and writes nothing (R22, R69-R71). -/
def State.jump (s : State) (k : Core) (t : Word) : Answer :=
  if targetOk t then .next (s.setMe (k.setPc (align4 t))) else s.trap 0x20 t

/-- How a loaded value is extended into its register (R72). -/
def extend (signed : Bool) (n : Nat) (v : Nat) : Word :=
  if signed then (BitVec.ofNat n v).signExtend 64 else BitVec.ofNat 64 v

/-- The general registers whose words an instruction consumes (R51-R56, R78, R324); the device's own steps consume none. -/
def sourcesOf : Instr → List Reg
  | .add _ a b | .sub _ a b | .mul _ a b | .mulh _ a b | .mulhu _ a b | .div _ a b | .divu _ a b | .rem _ a b | .remu _ a b => [a, b]
  | .and _ a b | .or _ a b | .xor _ a b | .shl _ a b | .shr _ a b | .sra _ a b => [a, b]
  | .slt _ a b | .sltu _ a b | .min _ a b | .max _ a b | .cell _ a b _ => [a, b]
  | .addi _ a _ | .andi _ a _ | .ori _ a _ | .xori _ a _ | .slti _ a _ => [a]
  | .shli _ a _ | .shri _ a _ | .srai _ a _ | .clz _ a | .popc _ a | .jalr _ a _ => [a]
  | .cell3 _ a b c => [a, b, c]
  | .beq a b _ | .bne a b _ | .blt a b _ | .bge a b _ | .bltu a b _ | .bgeu a b _ => [a, b]
  | .ldb _ a _ | .ldbu _ a _ | .ldh _ a _ | .ldhu _ a _ | .ldw _ a _ | .ldwu _ a _ | .ldd _ a _ => [a]
  | .stb a b _ | .sth a b _ | .stw a b _ | .std a b _ => [a, b]
  | .cfgload _ a b _ | .armsec a b | .chsend a b _ | .barinit a b => [a, b]
  | .cfgdrop a _ | .glaunch _ a | .qpush _ a _ | .sigemit a _ | .sigread _ a _ | .gwait _ a => [a]
  | .amo d a b _ _ _ => [a, b, d]
  | .bararr a | .barwait _ a | .barinv a | .crw a _ | .hdlset a _ => [a]
  | _ => []

end Sys2Proof.Machine
end

