-- ==== Sys2Proof/Machine/LoadStore.lean ====
section
/-! DEFINITION. Loads and stores of the control core (04 R72-R75). -/

namespace Sys2Proof.Machine

/-- The value of an access at translated addresses: storage, or the register block, which answers aligned 8-byte loads
and reads zero to any other (R459). -/
def State.loadValue (s : State) (pas : List Nat) : Nat :=
  if isBlock pas then
    let p := pas.headD 0
    if pas.length = 8 && p % 8 = 0 then (s.blockRead (p - blockBase)).toNat else 0
  else leNat (s.bytesAt pas)

/-- Bytes stored by the acting core at translated addresses (R21, R73, R459). -/
def State.storeValue (s : State) (pas : List Nat) (v : Nat) : State :=
  if isBlock pas then
    let p := pas.headD 0
    if pas.length = 8 && p % 8 = 0 then s.blockWrite (p - blockBase) (BitVec.ofNat 64 v) else s
  else (s.noteStores (pas.map s.key)).storeBytes pas (leBytes pas.length v)

/-- A load of n bytes (R72): the range, the translation, the delivery of the word, then the register. -/
def State.load (s : State) (d a : Reg) (i : BitVec 12) (n : Nat) (signed : Bool) : Answer :=
  let va := s.ea a i
  match s.span va n .load with
  | .trap c t => s.trap c t
  | .ok pas s1 => match s1.undeliverables pas with
    | some c => s.trap c va
    | none => s1.writeNext d (extend signed (8 * n) (s1.loadValue pas))

/-- A store of n bytes (R73): the range, the translation, the refusals, the delivery, then every byte. -/
def State.store (s : State) (a b : Reg) (i : BitVec 12) (n : Nat) : Answer :=
  let va := s.ea a i
  match s.span va n .store with
  | .trap c t => s.trap c t
  | .ok pas s1 => match s1.storeRefused pas with
    | some c => s.trap c va
    | none => match s1.unstorable pas with
      | some c => s.trap c va
      | none => .next (s1.storeValue pas (s1.reg b).toNat).skip

def execLdb (d a : Reg) (i : BitVec 12) (s : State) : Answer := s.load d a i 1 true
def execLdbu (d a : Reg) (i : BitVec 12) (s : State) : Answer := s.load d a i 1 false
def execLdh (d a : Reg) (i : BitVec 12) (s : State) : Answer := s.load d a i 2 true
def execLdhu (d a : Reg) (i : BitVec 12) (s : State) : Answer := s.load d a i 2 false
def execLdw (d a : Reg) (i : BitVec 12) (s : State) : Answer := s.load d a i 4 true
def execLdwu (d a : Reg) (i : BitVec 12) (s : State) : Answer := s.load d a i 4 false
def execLdd (d a : Reg) (i : BitVec 12) (s : State) : Answer := s.load d a i 8 false
def execStb (a b : Reg) (i : BitVec 12) (s : State) : Answer := s.store a b i 1
def execSth (a b : Reg) (i : BitVec 12) (s : State) : Answer := s.store a b i 2
def execStw (a b : Reg) (i : BitVec 12) (s : State) : Answer := s.store a b i 4
def execStd (a b : Reg) (i : BitVec 12) (s : State) : Answer := s.store a b i 8

end Sys2Proof.Machine
end

