-- ==== Sys2Proof/Machine/Sync.lean ====
section
/-! DEFINITION. The control core's synchronisation: FENCE, AMO and its delivery exactly once, channels, barriers
(16 R322-R333; 23 R417). -/

namespace Sys2Proof.Machine

/-! ### FENCE (R323) -/

/-- Every earlier access of the core is performed already (log entry 11); fetches see the core's stores from now on. -/
def execFence (_scope : BitVec 3) (s : State) : Answer :=
  .next (s.setMe { s.me with istale := [], pc := s.me.pc + 4 })

/-! ### Atomics (R322, R324) -/

/-- The new value of an atomic, none where a CAS fails; n is 32 or 64 bits (R324). -/
def amoNew (op : BitVec 3) (n : Nat) (old v e : Nat) : Option Nat :=
  let so := (BitVec.ofNat n old).toInt
  let sv := (BitVec.ofNat n v).toInt
  match op.toNat with
  | 0 => some ((old + v) % 2 ^ n)
  | 1 => some v
  | 2 => if old = e then some v else none
  | 3 => some (if so ≤ sv then old else v)
  | 4 => some (if so ≥ sv then old else v)
  | 5 => some (old &&& v)
  | 6 => some (old ||| v)
  | _ => none

/-- The old value sign-extended into the register (R324). -/
def amoResult (wide : Bool) (old : Nat) : Word := extend true (if wide then 64 else 32) old

/-- The place that answers an atomic: the home slice of the line, the host agent, or another module (R256, R322). -/
def State.atomTarget (s : State) (pa : Nat) : Nat :=
  let k := s.key pa
  if k < devBytes then k / chanBytes * 8 + k % chanBytes / 64 % 8
  else match window pa with
    | .domain m => 4096 + m
    | _ => 2048

/-- The read and the write of an atomic, as one (R324). -/
def State.applyAtomic (s : State) (a : Atomic) : Nat × State :=
  if isBlock a.pas then (0, s)
  else
    let n := if a.wide then 64 else 32
    let old := leNat (s.bytesAt a.pas)
    match amoNew a.op n old (a.value.toNat % 2 ^ n) (a.expect.toNat % 2 ^ n) with
    | none => (old, s)
    | some new => (old, s.storeBytes a.pas (leBytes (n / 8) new))

/-- The replies kept of one source at one target: the 64 newest (R322). -/
def keepReplies (r : Reply) (l : List Reply) : List Reply :=
  let mine := l.filter fun q => q.target = r.target && q.src = r.src
  let others := l.filter fun q => !(q.target = r.target && q.src = r.src)
  r :: mine.take 63 ++ others

/-- A target receives an atomic: it answers from its reply cache, or applies the atomic and remembers the reply (R322). -/
def State.receive (s : State) (a : Atomic) : Nat × State :=
  match s.replies.find? fun r => r.target = a.target && r.src = a.src && r.id = a.id with
  | some r => (r.old.toNat, s)
  | none =>
    let (old, s1) := s.applyAtomic a
    (old, { s1 with replies := keepReplies ⟨a.target, a.src, a.id, BitVec.ofNat 64 old⟩ s1.replies })

/-- What the networks do with the next send. -/
def State.nextLoss (s : State) : Loss × State :=
  match s.losses with
  | [] => (.no, s)
  | l :: r => (l, { s with losses := r })

/-- The entry of a source's unanswered atomic. -/
def State.atomic (s : State) (src : Nat) (id : BitVec 16) : Option Atomic :=
  s.atoms.find? fun a => a.src = src && a.id = id
/-- The atomic is answered: it leaves the unanswered ones. -/
def State.dropAtomic (s : State) (a : Atomic) : State :=
  { s with atoms := s.atoms.filter fun b => !(b.src = a.src && b.id = a.id) }

/-- The reply reaches the core: the register is written and the core goes on (R324). -/
def State.answerCore (s : State) (a : Atomic) (old : Nat) : State :=
  let c := Fin.ofNat 256 a.src
  (s.dropAtomic a).updCore c fun k =>
    { (k.setReg a.rd (amoResult a.wide old)).setPc (k.pc + 4) with wait := .none }

/-- One send of an atomic: it is received and answered, unless the networks lose the request or the reply (R322). -/
def State.send (s : State) (a : Atomic) : State :=
  match s.nextLoss with
  | (.no, s1) => let (old, s2) := s1.receive a; s2.answerCore a old
  | (.request, s1) => s1
  | (.reply, s1) => (s1.receive a).2

/-- The checks of AMO in the order of R324 and R59, then the send. -/
def execAmo (d a b : Reg) (o : BitVec 3) (z : BitVec 1) (_scope : BitVec 3) (s : State) : Answer :=
  let va := s.reg a
  let n := if z = 1 then 8 else 4
  if !inRange va n then s.trap 0x20 va
  else if va.toNat % n ≠ 0 then s.trap 0x28 va
  else match s.span va n .store with
    | .trap c t => s.trap c t
    | .ok pas s1 => match s1.storeRefused pas with
      | some c => s.trap c va
      | none => match s1.undeliverables pas with
        | some c => s.trap c va
        | none =>
          let k := s1.me
          let at1 : Atomic :=
            { src := s1.cur.val, id := k.atomId, target := s1.atomTarget (pas.headD 0), addr := va, pas := pas, op := o,
              wide := z = 1, value := s1.reg b, expect := s1.reg d, rd := d, sends := 1, since := s1.cycle }
          let s2 := (s1.setMe { k with atomId := k.atomId + 1, wait := .atomic k.atomId }).noteStores (pas.map s1.key)
          .next (State.send { s2 with atoms := at1 :: s2.atoms } at1)

/-- A target receives a copy of an unanswered atomic, and its reply reaches the source (R322). -/
def execAtomicReceive (src : Nat) (id : BitVec 16) (s : State) : Answer :=
  match s.atomic src id with
  | none => .next s
  | some a => let (old, s1) := s.receive a; .next (s1.answerCore a old)

/-- Cycles a source waits for a reply (R322). -/
abbrev resendCycles : Nat := 65536

/-- An unanswered atomic is sent again, up to eight sends; then its core takes 0x2B (R322). -/
def execAtomicResend (src : Nat) (id : BitVec 16) (s : State) : Answer :=
  match s.atomic src id with
  | none => .next s
  | some a =>
    if s.cycle < a.since + resendCycles then .next s
    else if a.sends < 8 then
      let a1 := { a with sends := a.sends + 1, since := s.cycle }
      .next (State.send { s.dropAtomic a with atoms := a1 :: (s.dropAtomic a).atoms } a1)
    else
      let c := Fin.ofNat 256 src
      let s1 := (s.dropAtomic a).updCore c fun k => { k with wait := .none }
      .next (s1.raiseAt c (s1.core c).pc 0x2B a.addr)

/-! ### Channels (R325-R327, R417) -/

/-- The messages an endpoint holds. -/
def Core.queue (k : Core) (e : BitVec 6) : List (MsgUse × BitVec 63) := k.queues.get [] e.toNat
/-- A queue replaced. -/
def Core.setQueue (k : Core) (e : BitVec 6) (q : List (MsgUse × BitVec 63)) : Core :=
  { k with queues := k.queues.set [] e.toNat q }

/-- What a message that enters an endpoint waits for (R417). -/
def Core.useOf (k : Core) (e : BitVec 6) : MsgUse :=
  if !k.bound e then .recv else if k.enabled e then .disp else .parked

/-- A message enters an endpoint of a core, or of the receiver of a stopped one (R325, R415, R417). -/
def State.deliver (s : State) (c : CoreIx) (e : BitVec 6) (m : BitVec 63) : State :=
  let c1 := s.addressee 5 c
  let k := s.core c1
  let u := k.useOf e
  let k1 := k.setQueue e (k.queue e ++ [(u, m)])
  match u with
  | .recv => s.setCore c1 k1
  | .disp => s.setCore c1 { k1 with dispatch := k.dispatch ++ [e] }
  | .parked => (s.setCore c1 { k1 with dispatch := k.dispatch ++ [e] }).post c1 (plainCause 0xA6 true (BitVec.ofNat 64 e.toNat))

/-- An endpoint holds at most 16 messages (R325). -/
def State.fullAt (s : State) (c : CoreIx) (e : BitVec 6) : Bool := 16 ≤ ((s.core (s.addressee 5 c)).queue e).length

/-- Whether a CHSEND destination is one that R325 allows. -/
def State.goodEndpoint (s : State) (v : Word) : Bool :=
  let m := field v 8 6
  field v 15 49 = 0 &&
  (if v.getLsbD 14 then s.domainUp m && (m ≠ s.modnum || (s.core (Fin.ofNat 256 (field v 0 8))).run ≠ .retired)
   else m = 0 && (s.core (Fin.ofNat 256 (field v 0 8))).run ≠ .retired)

/-- CHSEND (R325, R326): a bad destination traps, a full queue makes the core wait, else the message enters. -/
def execChsend (a b : Reg) (e : BitVec 6) (s : State) : Answer :=
  let v := s.reg a
  let m := (s.reg b).setWidth 63
  let c := Fin.ofNat 256 (field v 0 8)
  if !s.goodEndpoint v then s.trap 0xA7 v
  else if v.getLsbD 14 && field v 8 6 ≠ s.modnum then
    .next (State.skip { s with sent := s.sent ++ [⟨field v 8 6, field v 0 8, e, m⟩] })
  else if s.fullAt c e then .next s
  else .next ((s.deliver c e m).skip)

/-- The oldest message for CHRECV, and the queue without it. -/
def takeRecv : List (MsgUse × BitVec 63) → Option (BitVec 63 × List (MsgUse × BitVec 63))
  | [] => none
  | (.recv, m) :: r => some (m, r)
  | x :: r => (takeRecv r).map fun p => (p.1, x :: p.2)

/-- CHRECV waits for a message; CHPOLL answers 0xA5 where there is none (R327). -/
def execChrecv (d : Reg) (e : BitVec 6) (s : State) : Answer :=
  match takeRecv (s.me.queue e) with
  | none => .next s
  | some (m, q) => (s.setMe (s.me.setQueue e q)).writeNext d (m.setWidth 64)

def execChpoll (d : Reg) (e : BitVec 6) (s : State) : Answer :=
  match takeRecv (s.me.queue e) with
  | none => s.writeNext d (statusWord 0xA5 0)
  | some (m, q) => (s.setMe (s.me.setQueue e q)).writeNext d (m.setWidth 64)

/-- A message from another core or module reaches an endpoint; a full one keeps it on its way (R325, R326). -/
def execMessageArrive (c : CoreIx) (e : BitVec 6) (m : BitVec 63) (s : State) : Answer :=
  if s.fullAt c e then .next { s with inputs := s.inputs ++ [.messageArrive c e m] } else .next (s.deliver c e m)

/-! ### Barriers (R328-R332) -/

/-- The name of a barrier: TAB and the index (R328). -/
def barName (v : Word) : Nat := field v 0 21
/-- Whether xs1 names a barrier; only BARWAIT may give a target (R328). -/
def State.goodBarrier (s : State) (v : Word) (wait : Bool) : Bool :=
  field v 48 16 = 0 && (wait || field v 32 16 = 0) && field v 21 11 = 0 &&
  (if v.getLsbD 20 then s.bartabEn
   else field v 16 4 = 0 && (s.core (Fin.ofNat 256 (field v 8 8))).run ≠ .retired)

/-- The physical address of a table barrier's entry (R331). -/
def State.barPa (s : State) (name : Nat) : Nat := s.bartabBase + 16 * (name % 2 ^ 20)

/-- A barrier as it stands; a table entry of STATE 10 or 11 is FREE (R329, R331). -/
def State.getBar (s : State) (name : Nat) : Barrier :=
  if name < 2 ^ 20 then (s.core (Fin.ofNat 256 (name / 256))).barriers.get .free (name % 256)
  else
    let v := s.physNat (s.barPa name) 8
    if bits v 48 2 = 1 then ⟨true, BitVec.ofNat 16 v, BitVec.ofNat 16 (v / 2 ^ 16), BitVec.ofNat 16 (v / 2 ^ 32)⟩ else .free

/-- A barrier written back (R331: bits [127:50] zero). -/
def State.setBar (s : State) (name : Nat) (b : Barrier) : State :=
  if name < 2 ^ 20 then
    s.updCore (Fin.ofNat 256 (name / 256)) fun k => { k with barriers := k.barriers.set .free (name % 256) b }
  else s.storeNat (s.barPa name) 16 (b.count.toNat + b.arr.toNat * 2 ^ 16 + b.gen.toNat * 2 ^ 32 + b2n b.active * 2 ^ 48)

/-- GEN has reached TARGET (R329). -/
def reached (gen target : BitVec 16) : Bool := (gen - target).toNat < 2 ^ 15

/-- A barrier instruction whose barrier is well named and whose table entry can be reached; else its trap. The instruction's
own checks stand before those of the access: the name, then the trap `own` of BARINIT (R59 item 5, R328). A table in no
window holds no entry, so xs1 names no barrier (R331, R457, log entry 57). -/
def State.withBarrier (s : State) (v : Word) (wait : Bool) (own : Option Word) (k : Answer) : Answer :=
  if !s.goodBarrier v wait then s.trap 0x2A v
  else if let some tval := own then s.trap 0x2A tval
  else if !v.getLsbD 20 then k
  else match window s.bartabBase with
    | .none => s.trap 0x2A v
    | _ => match s.undeliverables (addrs (s.barPa (barName v)) 16) with
      | some c => s.trap c v
      | none => k

/-- BARINIT: waiters get RESET, the barrier starts anew (R328, R329). -/
def execBarinit (a b : Reg) (s : State) : Answer :=
  let v := s.reg a
  let n := (s.reg b).toNat
  s.withBarrier v false (if n = 0 ∨ n > 65535 then some (s.reg b) else none) <|
    .next (((s.wake (barName v) (fun _ => true) 1).setBar (barName v) ⟨true, BitVec.ofNat 16 n, 0, 0⟩).skip)

/-- BARARR: an arrival; the last of a phase completes it and releases the waiters it reaches (R329). -/
def execBararr (a : Reg) (s : State) : Answer :=
  let v := s.reg a
  s.withBarrier v false none <|
    let b := s.getBar (barName v)
    if !b.active then s.trap 0x2A v
    else if b.arr.toNat + 1 < b.count.toNat then .next ((s.setBar (barName v) { b with arr := b.arr + 1 }).skip)
    else
      let g := b.gen + 1
      .next (((s.setBar (barName v) { b with arr := 0, gen := g }).wake (barName v) (fun t => reached g t) 0).skip)

/-- BARWAIT: at once where the barrier is FREE or the phase is reached, else the core waits (R329). -/
def execBarwait (d a : Reg) (s : State) : Answer :=
  let v := s.reg a
  let target := BitVec.ofNat 16 (field v 32 16)
  s.withBarrier v true none <|
    let b := s.getBar (barName v)
    if !b.active then s.writeNext d 2
    else if reached b.gen target then s.writeNext d 0
    else .next (s.setMe { s.me with wait := .barrier (barName v) target d })

/-- BARINV: waiters get INVALID, the barrier is FREE (R329). -/
def execBarinv (a : Reg) (s : State) : Answer :=
  let v := s.reg a
  s.withBarrier v false none <|
    if !(s.getBar (barName v)).active then .next s.skip
    else .next (((s.wake (barName v) (fun _ => true) 2).setBar (barName v) .free).skip)

end Sys2Proof.Machine
end

