-- ==== Sys2Proof/Machine/System.lean ====
section
/-! DEFINITION. Traps of instructions that cannot be fetched or decoded, TRAP, BRK, TRET, WAITI, HDLSET, and deliveries
(03 R57-R59; 23 R415-R424). -/

namespace Sys2Proof.Machine

/-- A fetched word that is no instruction (R57). -/
def execIllegalInstruction (w : BitVec 32) (s : State) : Answer := s.trap 0xA3 (w.setWidth 64)
/-- A fetch that fails (R22, R59). -/
def execFetchFault (c : Byte) (v : Word) (s : State) : Answer := s.trap c v

/-- TRAP and BRK (R420). -/
def execTrap (c : BitVec 12) (s : State) : Answer := s.trap 0xA9 (c.setWidth 64)
def execBrk (c : BitVec 12) (s : State) : Answer := s.trap 0xAA (c.setWidth 64)

/-- A privileged instruction: in user mode it raises 0xA4 with TVAL its word (R58). -/
def State.privileged (s : State) (i : Instr) (k : Answer) : Answer :=
  if s.me.sup then k else s.trap 0xA4 (BitVec.ofNat 64 ((encodeNat i).getD 0))

/-- TRET (R421). -/
def execTret (s : State) : Answer := s.privileged .tret (.next (s.setMe s.me.ret))

/-- WAITI completes once a delivery is pending, whatever IE holds; else the core waits (R422). -/
def execWaiti (s : State) : Answer :=
  s.privileged .waiti (.next (if s.me.hasDelivery then s.skip else s.setMe { s.me with wait := .waiti }))

/-- The parked messages of an endpoint become dispatches, in order (R417). -/
def unpark (q : List (MsgUse × BitVec 63)) : List (MsgUse × BitVec 63) :=
  q.map fun p => if p.1 = .parked then (.disp, p.2) else p

/-- HDLSET writes an entry; an entry that becomes enabled dispatches what was parked, each in its place in the order of arrival (R415,
R417, R424). -/
def Core.hdlset (k : Core) (e : BitVec 6) (v : Word) : Core :=
  let w := BitVec.ofNat 64 (field v 0 52)
  let k1 := { k with handlers := k.handlers.set 0 e.toNat w }
  if w.getLsbD 1 && w.getLsbD 0 then
    k1.setQueue e (unpark (k.queue e))
  else k1

def execHdlset (a : Reg) (e : BitVec 6) (s : State) : Answer :=
  s.privileged (.hdlset a e) (.next (s.setMe ((s.me.hdlset e (s.reg a)).setPc (s.me.pc + 4))))

/-! ### Deliveries (R413-R415, R419) -/

/-- The address of a core's fault record (R412). -/
def Core.recordPa (k : Core) : Nat := field k.frec 8 44 * 256

/-- Bytes that the device itself writes, as a fault record at FREC: only those that a path reaches (R413). -/
def State.deviceWrite (s : State) (pa : Nat) (bs : List Byte) : State :=
  let ps := ((addrs pa bs.length).zip bs).filter fun pb =>
    !(window pb.1 = .none || window pb.1 = .block || (s.unstorable [pb.1]).isSome)
  s.storeBytes (ps.map (·.1)) (ps.map (·.2))

/-- Barrier waits end without a status when a core takes a delivery: TRET waits again (R330). -/
def Core.unwait (k : Core) : Core := match k.wait with
  | .barrier _ _ _ => { k with wait := .none }
  | _ => k

/-- The first undelivered cause of a core is taken between instructions: the record, then trap entry (R413-R415). -/
def execGraphCauseDelivery (c : CoreIx) (s : State) : Answer :=
  let k := s.core c
  match k.pending with
  | [] => .next s
  | p :: r =>
    if !k.takesDelivery then .next s
    else
      let s1 := if k.frec = 0 then s else s.deviceWrite k.recordPa p.record
      .next (s1.setCore c ({ k.unwait with pending := r }.enter k.pc p.cause p.imp p.tval k.tvec))

/-- The oldest dispatched message of a queue, and the queue without it. -/
def takeDisp : List (MsgUse × BitVec 63) → Option (BitVec 63 × List (MsgUse × BitVec 63))
  | [] => none
  | (.disp, m) :: r => some (m, r)
  | x :: r => (takeDisp r).map fun p => (p.1, x :: p.2)

/-- A bound endpoint's message is taken: trap entry with cause 0xA8 at the handler's address (R415, R419). -/
def execMessageDispatch (c : CoreIx) (s : State) : Answer :=
  let k := s.core c
  match k.nextDispatch with
  | none => .next s
  | some e => match takeDisp (k.queue e) with
    | none => .next s
    | some (m, q) =>
      if !k.takesDelivery || !k.pending.isEmpty then .next s
      else
        let k1 := { k.unwait.setQueue e q with dispatch := k.dispatch.erase e }
        let h := BitVec.ofNat 64 (field (k.handler e) 2 50 * 4)
        .next (s.setCore c (k1.enter k.pc 0xA8 false (m.setWidth 64) h))

end Sys2Proof.Machine
end

