-- ==== Sys2Proof/Machine/CellInstr.lean ====
section
/-! DEFINITION. CELL and CELL3 (04 R76-R79; 03 R53-R57). -/

namespace Sys2Proof.Machine

/-- CMOD.MOD (R55). -/
def Core.cmodMod (k : Core) : BitVec 24 := k.cmod.setWidth 24
/-- CMOD.COP (R55). -/
def Core.cmodCop (k : Core) : Nat := field k.cmod 24 8

/-- One firing on register operands; a code that is no compute-cell opcode is an illegal instruction (R57, R76). -/
def State.runCell (s : State) (i : Instr) (op : Nat) (d : Reg) (a b c : Lane) : Answer :=
  if isCellCode op then s.writeNext d (cellResult (cellEval op s.me.cmodMod a b c))
  else s.trap 0xA3 (BitVec.ofNat 64 ((encodeNat i).getD 0))

/-- CELL: the opcode of the word, port C all zero (R76). -/
def execCell (d a b : Reg) (op : BitVec 8) (s : State) : Answer :=
  s.runCell (.cell d a b op) op.toNat d ((s.reg a).setWidth 40) ((s.reg b).setWidth 40) 0

/-- CELL3: the opcode of CMOD (R76). -/
def execCell3 (d a b c : Reg) (s : State) : Answer :=
  s.runCell (.cell3 d a b c) s.me.cmodCop d ((s.reg a).setWidth 40) ((s.reg b).setWidth 40) ((s.reg c).setWidth 40)

end Sys2Proof.Machine
end

