-- ==== Sys2Proof/Machine/Chains.lean ====
section
/-! DEFINITION. The ordering buffer, the replies of memory and transfers into tiles (14 R282-R285; 16 R314, R319, R322;
12 R248-R250, R253). -/

namespace Sys2Proof.Machine

/-- A chain of a graph. -/
def Graph.chain (x : Graph) (c : Nat) : Chain := x.chains.get .idle c
/-- The module with a chain changed. -/
def State.updChain (s : State) (g : GraphIx) (c : Nat) (f : Chain → Chain) : State :=
  s.updGraph g fun x => { x with chains := x.chains.set .idle c (f (x.chain c)) }

/-- The home core of a graph: the core of its lowest page (R143). -/
def Graph.home (x : Graph) : CoreIx := match x.pages.head? with
  | some p => p.2.1
  | none => 0

/-- Whether the events of a graph's chains may happen: it runs, nothing is frozen. A fault of another chain or element does not
stop them (R285). -/
def Graph.chainsRun (x : Graph) : Bool := x.live && x.st = .run && !x.frozen && (x.ctx = .running || x.ctx = .draining)

/-- Whether a graph's transfers may happen: no fault stands either (R407). -/
def Graph.dataRuns (x : Graph) : Bool := x.chainsRun && x.raised.isEmpty && x.noted.isEmpty

/-- Entries that the slice of a chain holds: chains alike modulo 8 of the graphs at home on one core (R284). -/
def State.sliceHeld (s : State) (g : GraphIx) (c : Nat) : Nat :=
  let home := (s.graph g).home
  s.graphs.foldl (fun n y => if y.2.live && y.2.home = home then
    y.2.chains.foldl (fun k p => if p.1 % 8 = c % 8 then k + p.2.held.length else k) n else n) 0

/-- TVAL of a chain cause (R285). -/
def chainTval (c wave seq : Nat) : Word := BitVec.ofNat 64 (c + 2 ^ 6 * wave + 2 ^ 22 * seq)

/-- A chain cause raised; the chain releases nothing further (R285). -/
def State.chainFault (s : State) (g : GraphIx) (c : Nat) (cause : Byte) (e : Entry) : State :=
  let i := s.genFault ⟨g, Fin.ofNat 256 e.gen⟩ cause 0
  (s.raise g { i with chain := some (c, e.wave, e.seq), tval := chainTval c e.wave e.seq }).updChain g c
    fun k => { k with stuck := true }

/-- CHAIN_ENTRY_ARRIVE: an entry on its way reaches the ordering buffer (R284, R285). Which of several arrives first is
open (log entry 2). -/
def execChainEntryArrive (g : GraphIx) (chain : BitVec 6) (s : State) : Answer :=
  let c := chain.toNat
  let k := (s.graph g).chain c
  if !(s.graph g).chainsRun || k.way.isEmpty then .next s
  else
    let (n, s1) := if k.way.length = 1 then (0, s) else s.choose k.way.length
    match k.way[n]? with
    | none => .next s
    | some e =>
      let s2 := s1.updChain g c fun k => { k with way := k.way.eraseIdx n }
      if 64 ≤ k.held.length || 1024 ≤ s.sliceHeld g c then .next (s2.chainFault g c 0x42 e)
      else if 2 ^ 15 ≤ (e.wave + 2 ^ 16 - k.cur) % 2 ^ 16 || (k.held.any fun h => h.wave = e.wave && h.seq = e.seq) ||
          (e.wave = k.cur && k.done.contains e.seq) then .next (s2.chainFault g c 0x43 e)
      else .next ((s2.updChain g c fun k =>
        { k with held := k.held ++ [e], since := if k.held.isEmpty then s.cycle else k.since }).updGraph g
          fun x => { x with act := x.act + 1 })

/-- can_release of R284. -/
def Chain.canRelease (k : Chain) (e : Entry) : Bool :=
  !k.stuck && e.wave = k.cur &&
  match k.last with
  | none => e.pred = 0
  | some (own, succ) => e.pred ≠ 0 && (e.pred = 0xFFF || e.pred = own) && (succ = e.seq || succ = 0xFFF)

/-- Memory as a chained access sees it: with the stores and camera updates of its chain that pockets hold (R284, R404). -/
def State.withChain (s : State) (g : GraphIx) (c : Nat) : State :=
  let x := s.graph g
  let t := x.pocket.foldl (fun (t : State) e =>
    if x.chainOf e = some c then match t.performEntry g e with
      | .done t1 => t1
      | _ => t
    else t) s
  { s with mem := t.mem, repair := t.repair }

/-- The sends of a fabric atomic until one is answered: whether it was applied, and whether a reply came (R322). -/
def State.lossy : Nat → Bool → State → Bool × Bool × State
  | 0, applied, s => (applied, false, s)
  | n + 1, applied, s => match s.nextLoss with
    | (.no, s1) => (true, true, s1)
    | (.request, s1) => State.lossy n applied s1
    | (.reply, s1) => State.lossy n true s1

/-- One lane of CHAMO: an atomic on a 32-bit word, its operand and its old value converted as FMT has it, delivered once or lost
(R156, R273, R319, R322, R332). One that has been applied makes its window non-replayable, answered or not (R405). -/
def gchamoLane (g : GenAt) (off : Int) (x : Lane) : GM Lane := do
  let q ← ggen g
  let (v, ev) := q.fmt.store x (gOvf q.f)
  gevent g ev
  let a := (q.elemAt off).1.toNat
  let pas ← gpas g a 4 .store
  fun s => match s.storeRefused pas with
    | some c => .error (.fault c a)
    | none => match s.undeliverables pas with
      | some c => .error (.fault c a)
      | none =>
        let old := leNat (s.bytesAt pas)
        let (applied, answered, s1) := State.lossy 8 false s
        let s2 := match amoNew (BitVec.ofNat 3 (gImm q.f 0 3)) 32 old v 0 with
          | some new => if applied then s1.storeBytes pas (leBytes 4 new) else s1
          | none => s1
        let s3 := if applied then s2.updGraph g.graph fun x => x.kill (s2.gen g).win else s2
        if answered then .ok (q.fmt.load old 0, s3) else .ok (0, s3.raise g.graph (s3.genFault g 0x2B a))

/-- The tokens that wait for an entry replaced by what it brought; they leave once the reply has come. -/
def gfill (g : GenAt) (id : Nat) (ts : List Token) : GM Unit := gupd g fun q =>
  { q with line := q.line.flatMap fun i =>
      if i.wait = some id then ts.map fun t => .of t t.closes else [i] }

/-- The access of a released entry performed (R284, R319, R345). A read sees the stores of its chain that pockets hold; before an
atomic they are performed, so that it follows them (R291, R404, log entry 77). -/
def gperformChained (g : GenAt) (c : Nat) (e : Entry) : GM Unit := do
  let q ← ggen g
  match e.idx with
  | none => pure ()
  | some idx => match opcOf q.f with
    | 0x08 => match q.elements idx (idx.lanesBelow 15) with
      | .inl els =>
        let ts ← gunder (fun s => s.withChain g.graph c) (gtokens g els)
        gfill g e.id ts
      | .inr _ => pure ()
    | 0x09 => match q.elements idx (pairLanes idx e.vals 15) with
      | .inl els => gstorePair g els e.vals
      | .inr _ => pure ()
    | 0x0A => match q.elements idx (pairLanes idx e.vals 15) with
      | .inl els =>
        fun s => .ok ((), s.drainEarly g.graph fun d => (s.graph g.graph).chainOf d = some c)
        let v := e.vals.headD doneTok
        let olds ← els.mapM fun (p : Nat × Int) => do return (p.1, ← gchamoLane g p.2 (v.lane p.1))
        gfill g e.id [laneTokOf olds]
      | .inr _ => pure ()
    | 0x11 =>
      let (cam, d, _) ← gcamera g
      let ts ← gunder (fun s => s.withChain g.graph c)
        (gcamgView g cam d (q.f.getLsbD 4) (idx.lane 0) (idx.lane 1) (idx.lane 2))
      gfill g e.id (ts ++ [stopTok 0])
    | 0x13 => gcamIssue g idx e.vals
    | _ => pure ()

/-- The chain after an entry has been performed (R284). -/
def Chain.performed (k : Chain) (e : Entry) (cycle : Nat) : Chain :=
  let k1 := { k with held := k.held.erase e, since := cycle }
  if e.succ = 0 then { k1 with cur := (k.cur + 1) % 2 ^ 16, last := none, done := [] }
  else { k1 with last := some (e.seq, e.succ), done := k.done ++ [e.seq] }

/-- CHAIN_RELEASE: the first held entry that can be released is performed (R284). -/
def execChainRelease (g : GraphIx) (chain : BitVec 6) (s : State) : Answer :=
  let c := chain.toNat
  let k := (s.graph g).chain c
  if !(s.graph g).chainsRun then .next s
  else match k.held.find? k.canRelease with
    | none => .next s
    | some e =>
      let at_ : GenAt := ⟨g, Fin.ofNat 256 e.gen⟩
      match gperformChained at_ c e s with
      | .error (.fault cause va) =>
        .next (s.raise g { s.genFault at_ cause va with chain := some (c, e.wave, e.seq) })
      | .error (.bad cause n va) => .next (s.genBad at_ cause n va)
      | .ok ((), s1) =>
        let s2 := (s1.updChain g c fun k => k.performed e s.cycle).updGraph g fun x => { x with act := x.act + 1 }
        .next ((s2.logStages g).spill at_)

/-- The held entry of lowest wave distance, then lowest SEQ (R285). -/
def Chain.oldest (k : Chain) : Option Entry :=
  let dist := fun (e : Entry) => ((e.wave + 2 ^ 16 - k.cur) % 2 ^ 16) * 4096 + e.seq
  k.held.foldl (fun b e => match b with
    | none => some e
    | some f => if dist e < dist f then some e else some f) none

/-- CHGAP_TIMEOUT: a chain that holds entries has released nothing for 2^20 cycles (R285). -/
def execChgapTimeout (g : GraphIx) (chain : BitVec 6) (s : State) : Answer :=
  let c := chain.toNat
  let k := (s.graph g).chain c
  match k.oldest with
  | none => .next s
  | some e =>
    if !(s.graph g).chainsRun || k.stuck || s.cycle < k.since + 2 ^ 20 then .next s
    else .next (s.chainFault g c 0x41 e)

/-! ### Replies and transfers -/

/-- The oldest request that its reply has not reached is answered (R253). -/
def replyFirst : List Item → Option (List Item)
  | [] => none
  | i :: r => if !i.ready && i.wait.isNone && i.owed.isNone then some ({ i with ready := true } :: r) else (replyFirst r).map (i :: ·)

/-- MEMORY_REPLY: the reply of the oldest outstanding request of a generator arrives (R253). -/
def execMemoryReply (g : GenAt) (s : State) : Answer :=
  match replyFirst (s.gen g).line with
  | none => .next s
  | some l => .next ((s.updGen g fun q => { q with line := l }).updGraph g.graph fun x => { x with act := x.act + 1 })

/-- The causes that a tile raises as faults (R248, R250). -/
def State.tileFaults (s : State) (g : GraphIx) (e : Elt) (cs : List Byte) : State :=
  cs.foldl (fun t c => t.raise g { FaultInfo.none with cause := c, ocause := c, loc := s.locOf e, window := (s.graph g).lowWin
                                                       firing := (s.site e).elem.firing }) s

/-- Stage tokens sent to the consumer of a tile whose frame asks for them: due two cycles later (R249). -/
def State.stageTokens (s : State) (e : Elt) (f : FrameBits) (stages : List Nat) : State :=
  if tileCen f then
    let c : Elt := { e with site := tileCsite f }
    stages.foldl (fun t i =>
      let x := t.site c
      t.setSite c { x with stage := x.stage ++ [(s.cycle + 2, stageToken f i)] }) s
  else s

/-- What a firing or a transfer changed at a tile, put into the module. -/
def State.putTile (s : State) (g : GraphIx) (e : Elt) (f : FrameBits) (t : TileFire) : State :=
  let s1 := s.setSite e t.x
  let s2 := { s1 with
    tiles := s1.tiles.set [] (siteKey e.core e.region e.site) t.mem
    repair := { s1.repair with badTiles := s1.repair.badTiles.filter fun p =>
      !(p.1 = { e with plane := p.1.plane } && t.wrote.any fun w => decide (w.1 ≤ 8 * p.2 ∧ 8 * p.2 + 8 ≤ w.1 + w.2)) } }
  (s2.tileFaults g e t.faults).stageTokens e f t.filled

/-- TILE_TRANSFER: a run's bytes enter stage pp of the tile they go to, once it is EMPTY; with the last of a nest without
streams the generator is done, and a source that is to stop halts (R248-R250, R309, R314, R438). -/
def execTileTransfer (g : GenAt) (s : State) : Answer :=
  let x := s.graph g.graph
  let q := x.genOf g.gen.val
  match q.xfer, x.place (gTpage q.f) with
  | bs :: rest, some (c, r) =>
    match s.genTilePlane g.graph q (gTpage q.f) with
    | none => .next s
    | some p =>
      let e : Elt := ⟨c, r, Fin.ofNat 16 (gTsite q.f), p⟩
      match (s.site e).tileFr with
      | none => .next s
      | some f =>
        if !x.dataRuns then .next s
        else match tileTransferIn f (s.site e) bs (s.tiles.get [] (siteKey c r e.site)) with
          | none => .next s
          | some t =>
            let s1 := s.putTile g.graph e f t
            let ended := rest.isEmpty && !q.on && !gIen q.f
            let level := if opcOf q.f = 1 then q.part.n else 0
            let s2 := s1.updGen g fun q1 => { q1 with
              xfer := rest
              half := if ended then { q1.half with face := { q1.half.face with done := true } } else q1.half
              fin := q1.fin || ended
              halt := q1.halt || (x.ctx = .draining && decide (x.cut ≤ level)) }
            .next (s2.updGraph g.graph fun y => { y with act := y.act + 1 })
  | _, _ => .next s

end Sys2Proof.Machine
end

