-- ==== Sys2Proof/Machine/Cells.lean ====
section
/-! DEFINITION. The firings of compute cells (09 R171-R191; 08 R160-R165). -/

namespace Sys2Proof.Machine

/-- The port operands of a compute frame (R136). -/
def cellPorts (f : FrameBits) (op : Nat) : List Nat := (cellReads op).filter fun i => srcOf f i = 0

/-- A site with its cell replaced. -/
def SitePlane.setCell (x : SitePlane) (c : Cell) : SitePlane := { x with cell := c }
/-- The cell after reset (R98). -/
def SitePlane.resetCell (x : SitePlane) : SitePlane := x.setCell .reset

/-- OR of the F bits of the port operands (R91). -/
def fillOf (x : SitePlane) (ports : List Nat) : Bool := ports.any fun p => (x.head p).any (·.fill)

/-- A lane of the sums or maxima, from its start value (R182). -/
def Cell.accLane (c : Cell) (op i : Nat) : Lane := c.acc.getD i (if op = 0x29 then wInf true else 0)

/-- A value taken into the per-lane sums or maxima (R182). -/
def Cell.accumulate (c : Cell) (op : Nat) (m : BitVec 24) (a : Token) : Cell :=
  { c with
      acc := lanesOf fun i =>
        let v := c.accLane op i
        if !a.valid i then v
        else if op = 0x29 then fmax v (a.lane i) else fadd v (a.lane i) (modRnd m)
      mask := c.mask ||| a.mask, fill := c.fill || a.fill, seen := true }

/-- A value counted in its valid lanes (R182). -/
def Cell.countLanes (c : Cell) (a : Token) : Cell :=
  { c with
      cnt := (List.range 16).map fun i => c.cnt.getD i 0 + b2n (a.valid i)
      mask := c.mask ||| a.mask, fill := c.fill || a.fill, seen := true }

/-- An entry of a ranking inserted before the first one it ranks above (R187). -/
def rankInsert (v : Lane) (n : Nat) : List (Lane × Nat) → List (Lane × Nat)
  | [] => [(v, n)]
  | e :: r => if ranksAbove v e.1 then (v, n) :: e :: r else e :: rankInsert v n r

/-- K of a ranking opcode. -/
def rankK (op : Nat) (m : BitVec 24) : Nat := if op = 0x34 then 1 else topK m
/-- VAL of a ranking opcode. -/
def rankVal (op : Nat) (m : BitVec 24) : Bool := if op = 0x34 then opx m 0 1 = 1 else opx m 7 1 = 1

/-- A value taken into the rankings (R187). -/
def Cell.rank (c : Cell) (op : Nat) (m : BitVec 24) (a : Token) : Cell :=
  { c with
      ranks := (List.range 16).map fun i =>
        let l := c.ranks.getD i []
        if a.valid i then (rankInsert (a.lane i) c.n l).take (rankK op m) else l
      n := c.n + 1, fill := c.fill || a.fill, seen := true }

/-- A value taken into ICDF (R186). -/
def Cell.icdf (c : Cell) (a b : Token) (fill : Bool) : Cell :=
  let t := c.thr.getD b
  let hit := fun i => a.valid i && (readW40 (t.lane i)).lt (readW40 (a.lane i))
  { c with
      thr := some t, n := c.n + 1, fill := c.fill || fill, seen := true
      found := (List.range 16).map fun i => match c.found.getD i none with
        | some k => some k
        | none => if hit i then some c.n else none
      last := (List.range 16).map fun i => if a.valid i then some c.n else c.last.getD i none }

/-- The result tokens of an accumulating opcode at a closing (R172, R182, R186, R187). -/
def Cell.results (c : Cell) (op : Nat) (m : BitVec 24) (bMask : BitVec 16) : List Token :=
  match op with
  | 0x28 => [valueTok c.mask c.fill fun i => c.accLane op i]
  | 0x2A => [valueTok 0xFFFF c.fill fun i => intOut (c.cnt.getD i 0) (modSat m)]
  | 0x32 =>
    let mask := match c.thr with | some t => t.mask | none => bMask
    [valueTok mask c.fill fun i =>
      intOut (match c.found.getD i none, c.last.getD i none with
        | some k, _ => (k : Int)
        | none, some k => (k : Int)
        | none, none => -1) false]
  | _ => (List.range (rankK op m)).map fun r =>
    valueTok (maskOf fun i => decide (r < (c.ranks.getD i []).length)) c.fill fun i =>
      match (c.ranks.getD i [])[r]? with
      | some e => if rankVal op m then canon e.1 else intOut e.2 false
      | none => 0

/-- Whether an opcode accumulates (R172). -/
def isAccum (op : Nat) : Bool := op = 0x28 || op = 0x2A || op = 0x32 || op = 0x33 || op = 0x34

/-- A stop or D at every port the cell reads (R99, R171, R172). -/
def cellStop (op : Nat) (f : FrameBits) (env : Env) (x : SitePlane) (ports : List Nat) (h : Token) : SitePlane :=
  let rl := rlvlOf f
  let c := x.cell
  let closing := closesAt h rl
  let owed := if closing && isAccum op && (h.isStop || c.seen)
    then c.results op (modOf f) (if srcOf f 1 = 0 then 0 else 0xFFFF) else []
  match owed[c.out]? with
  | some t => (x.setCell { c with out := c.out + 1 }).put false 0 rl t
  | none =>
    let y := ((x.eat ports).put false 0 rl h.bare).windowMark env false h
    if closing then y.resetCell else y

/-- A value at every port the cell reads (R171, R174-R187). -/
def cellValue (op : Nat) (f : FrameBits) (env : Env) (x : SitePlane) (ports : List Nat) : SitePlane :=
  let rl := rlvlOf f
  let m := modOf f
  let c := x.cell
  let t := operandTok x env f
  let a := t 0
  let fill := fillOf x ports
  let reads := cellReads op
  let mask := reads.foldl (fun k i => k &&& (t i).mask) 0xFFFF
  let emit := fun (y : SitePlane) (tok : Token) => (y.eat ports).put false 0 rl tok
  match op with
  | 0x28 => (x.setCell (c.accumulate op m a)).eat ports
  | 0x2A => (x.setCell (c.countLanes a)).eat ports
  | 0x29 => let c1 := c.accumulate op m a
            emit (x.setCell c1) (valueTok a.mask fill fun i => c1.accLane op i)
  | 0x31 => let c1 := c.accumulate op m a
            emit (x.setCell c1) (valueTok a.mask fill fun i => c1.accLane op i)
  | 0x33 => (x.setCell (c.rank op m a)).eat ports
  | 0x34 => (x.setCell (c.rank op m a)).eat ports
  | 0x32 => (x.setCell (c.icdf a (t 1) fill)).eat ports
  | 0x2B =>
    if (c.n : Int) < sint32 ((t 1).lane 0) then
      (x.setCell { c with n := c.n + 1 }).put false 0 rl
        (valueTok a.mask fill fun i => intOut (sint32 (a.lane i) + c.n * genStep m) (modSat m))
    else emit (x.setCell { c with n := 0 }) (stopTok (lvlField m))
  | 0x2C => emit x (valueTok a.mask fill fun i => (t 1).lane i)
  | 0x2D =>
    let n := delayN m
    let old := if n ≤ c.line.length then c.line.head? else none
    let out := match old with
      | some o => valueTok o.mask fill o.lane
      | none => valueTok a.mask fill (t 1).lane
    let line := (if n ≤ c.line.length then c.line.tail else c.line) ++ [valueTok a.mask false a.lane]
    emit (x.setCell { c with line := line, seen := true }) out
  | _ => match laneTok op m a (t 1) with
    | some r => emit x { r with fill := fill }
    | none => emit x (valueTok mask fill fun i => (laneOp op m (a.lane i) ((t 1).lane i) ((t 2).lane i)).getD 0)

/-- The ports that a firing reads: ICDF reads A alone after its first value while A holds one (R186). -/
def cellNames (op : Nat) (f : FrameBits) (x : SitePlane) : List Nat :=
  let ps := cellPorts f op
  if op = 0x32 && ps.contains 0 && ps.contains 1 && x.cell.seen && (x.head 0).all (·.kind = 0) then [0] else ps

/-- One firing of a cell of any opcode but the signed-digit ones. -/
def fireCell (op : Nat) (f : FrameBits) (env : Env) (x : SitePlane) : Option SitePlane :=
  if x.elem.drain.isSome then
    x.drainStep env false (cellPorts f op) (cellPorts f op) (rlvlOf f) SitePlane.resetCell
  else
    let ports := cellNames op f x
    match x.look env false ports [0] (rlvlOf f) with
    | .wait => none
    | .done y => some y
    | .go h =>
      if !env.free.contains 0 then none
      else if h.kind = 0 then some (cellValue op f env x ports) else some (cellStop op f env x ports h)

/-! ### Signed digits (R188-R191) -/

/-- The digit of a plane's lane: a value outside -3 to 3 is read as -4 (R188). -/
def digitOf (t : Token) (i : Nat) : Int := let v := sint32 (t.lane i); if v < -3 ∨ 3 < v then -4 else v

/-- X_k of the first k planes of a lane, as a dyadic number (R161, R189). -/
def sdPrefix (pl : List Token) (k i : Nat) : Dy :=
  (((pl.take k).map fun t => digitOf t i).zipIdx 1).foldl (fun s d => s.add ⟨d.1, -2 * (d.2 : Int)⟩) ⟨0, 0⟩

/-- Whether a plane read so far holds a malformed digit in a valid lane i (R163). -/
def sdBad (pl : List Token) (i : Nat) : Bool := pl.any fun t => t.valid i && digitOf t i = -4

/-- The first malformed digit in plane order and then lane order: plane index and lane (R190). A digit counts wherever its lane
is valid in its own plane, also where the lane is invalid in the other operand and its result is not valid (DESIGN CHOICE, log
entry 75: R163 and R190 leave open which lanes count). -/
def sdFirstBad (pls : List (List Token)) : Option (Nat × Nat) :=
  (List.range 16).findSome? fun j => (List.range 16).findSome? fun i =>
    if pls.any fun pl => match pl[j]? with | some t => t.valid i && digitOf t i = -4 | none => false
    then some (j + 1, i) else none

/-- Round half away from zero of v times 4^j, clamped to a digit (R189). -/
def sdDigit (v : Dy) (j : Nat) : Int :=
  let w : Dy := ⟨v.k, v.e + 2 * (j : Int)⟩
  let a := (Dy.add ⟨w.k.natAbs, w.e⟩ ⟨1, -1⟩).floor
  let z := w.k.sign * a
  if z > 3 then 3 else if z < -3 then -3 else z

/-- The digits z_1 ... z_j of a lane (R189). -/
def sdOnline (p : Nat → Dy) (delta : Nat) : Nat → List Int
  | 0 => []
  | j + 1 =>
    let zs := sdOnline p delta j
    let sum := (zs.zipIdx 1).foldl (fun s (d : Int × Nat) => s.add ⟨d.1, -2 * (d.2 : Int)⟩) (⟨0, 0⟩ : Dy)
    zs ++ [sdDigit ((p (j + 1 + delta)).add ⟨-sum.k, sum.e⟩) (j + 1)]

/-- The scale of a header's lane (R188). -/
def sdScale (h : Token) (i : Nat) : Nat := (h.lane i).toNat % 256

/-- Plane j of SDADD or SDMUL, lane i (R189). -/
def sdPlaneLane (op : Nat) (d : Digits) (ha hb : Token) (j i : Nat) : Int :=
  let ca := sdScale ha i
  let cb := sdScale hb i
  if sdBad d.plA i || sdBad d.plB i then -4
  else if op = 0x38 then
    let c := sdAddScale ca cb
    if c = 255 then 0
    else
      let p := fun k =>
        let xa := sdPrefix d.plA k i
        let xb := sdPrefix d.plB k i
        Dy.add ⟨xa.k, xa.e + (ca : Int) - c⟩ ⟨xb.k, xb.e + (cb : Int) - c⟩
      (sdOnline p 2 j).getLastD 0
  else if sdMulScale ca cb = 255 ∨ ca = 255 ∨ cb = 255 ∨ ca + cb < 125 then 0
  else
    let p := fun k => let q := (sdPrefix d.plA k i).mul (sdPrefix d.plB k i); ⟨q.k, q.e - 2⟩
    (sdOnline p 3 j).getLastD 0

/-- Plane j as a token: the headers' lanes, F of the group (R162, R189). -/
def sdPlane (op : Nat) (d : Digits) (fill : Bool) (ha hb : Token) (j : Nat) : Token :=
  valueTok (ha.mask &&& hb.mask) fill fun i => intOut (sdPlaneLane op d ha hb j i) false

/-- N of a group at its stop (R189). -/
def sdCount (op na nb : Nat) : Nat :=
  if op = 0x38 then (if na = 0 ∧ nb = 0 then 0 else min 12 (max na nb + 1))
  else if na = 0 ∨ nb = 0 then 0 else min 12 (na + nb + 1)

/-- A group closed: its stop or D is emitted (R188). -/
def sdEnd (f : FrameBits) (env : Env) (x : SitePlane) (h : Token) : SitePlane :=
  let y := ((x.put false 0 (rlvlOf f) h.bare).endSkip false).windowMark env false h
  if closesAt h (rlvlOf f) then y.resetCell else y.setCell { y.cell with dig := .none, fill := false }

/-- The skip request that a cell forwards or sends: the stops it has emitted, modulo 2 (R165). -/
def SitePlane.ask (x : SitePlane) : SitePlane := x.setHalf false { x.elem with send := some x.elem.parity }

/-- SDADD and SDMUL (R188, R189). -/
def fireSdOnline (op : Nat) (f : FrameBits) (env : Env) (x : SitePlane) : Option SitePlane :=
  let rl := rlvlOf f
  let ports := cellPorts f op
  let c := x.cell
  let d := c.dig
  let delta := if op = 0x38 then 2 else 3
  let free := env.free.contains 0
  if x.elem.drain.isSome then x.drainStep env false ports ports rl SitePlane.resetCell
  else match d.stop, d.hdrA, d.hdrB with
  | some h, some ha, some hb =>
    let j := d.out.length + 1
    if !free then none
    else if x.elem.skip || sdCount op d.plA.length d.plB.length < j then some (sdEnd f env x h)
    else
      let t := sdPlane op d c.fill ha hb j
      some ((x.setCell { c with dig := { d with out := d.out ++ [[0]] } }).put false 0 rl t)
  | _, _, _ =>
    let t := operandTok x env f
    let open_ := d.hdrA.isSome
    -- a port at its group's stop supplies digit 0 while the other holds a plane
    let vals := ports.filter fun p => (x.head p).any fun h => h.kind = 0
    let supply := open_ && vals.length = 1 && ports.length = 2 && ports.all fun p => (x.head p).any fun h =>
      (h.kind = 0 && !h.err) || h.isStop
    let names := if supply || (open_ && x.elem.skip && !vals.isEmpty) then vals else ports
    match x.look env false names [0] rl with
    | .wait => none
    | .done y => some y
    | .go h =>
      if h.kind = 0 && open_ && x.elem.skip then some (x.eat names)
      else if !free then none
      else if h.kind ≠ 0 then
        let y := x.eat names
        if open_ then
          let j := d.out.length + 1
          match d.hdrA, d.hdrB with
          | some ha, some hb =>
            if x.elem.skip || sdCount op d.plA.length d.plB.length < j then some (sdEnd f env y h)
            else some ((y.setCell { c with dig := { d with stop := some h, out := d.out ++ [[0]] } }).put false 0 rl
              (sdPlane op d c.fill ha hb j))
          | _, _ => some (sdEnd f env y h)
        else some (sdEnd f env y h)
      else
        let fill := c.fill || fillOf x names
        let y := x.eat names
        if !open_ then
          let ha := t 0
          let hb := t 1
          let c1 := { c with fill := fill, dig := { d with hdrA := some ha, hdrB := some hb } }
          let out := valueTok (ha.mask &&& hb.mask) fill fun i =>
            BitVec.ofNat 40 (if op = 0x38 then sdAddScale (sdScale ha i) (sdScale hb i)
              else sdMulScale (sdScale ha i) (sdScale hb i))
          some ((y.setCell c1).put false 0 rl out)
        else
          let plA := if names.contains 0 || srcOf f 0 ≠ 0 then d.plA ++ [t 0] else d.plA
          let plB := if names.contains 1 || srcOf f 1 ≠ 0 then d.plB ++ [t 1] else d.plB
          let k := max plA.length plB.length
          let j := d.out.length + 1
          let d1 := { d with plA := plA, plB := plB }
          let go := j + delta ≤ k && j ≤ 12 && (op = 0x38 || (plA ≠ [] && plB ≠ []))
          match d.hdrA, d.hdrB with
          | some ha, some hb =>
            if go then some ((y.setCell { c with fill := fill, dig := { d1 with out := d.out ++ [[0]] } }).put false 0 rl
              (sdPlane op d1 fill ha hb j))
            else some (y.setCell { c with fill := fill, dig := d1 })
          | _, _ => some (y.setCell { c with fill := fill, dig := d1 })

/-- The exact value of a group's lane (R161); none where the scale is 255. -/
def sdExact (h : Token) (pl : List Token) (i : Nat) : Option Dy :=
  let c := sdScale h i
  if c = 255 then none else let s := sdPrefix pl pl.length i; some ⟨s.k, s.e + (c : Int) - 127⟩

/-- The result of SDCMP or SDTOW for a closed group (R190). A value of SDTOW that needs more than 29 significant bits is rounded
RNE, whatever MOD.RND holds (DESIGN CHOICE, log entry 75: R192 names no rounding there). -/
def sdResult (op : Nat) (c : Cell) (ha hb : Token) : Token :=
  let d := c.dig
  if op = 0x3A then
    valueTok (ha.mask &&& hb.mask) c.fill fun i => match sdExact ha d.plA i, sdExact hb d.plB i with
      | some a, some b => intOut (a.cmp b) false
      | _, _ => 2
  else valueTok ha.mask c.fill fun i => match sdExact ha d.plA i with
    | some a => a.round .rne false
    | none => wNan

/-- SDCMP and SDTOW (R188, R190). -/
def fireSdForm (op : Nat) (f : FrameBits) (env : Env) (x : SitePlane) : Option SitePlane :=
  let rl := rlvlOf f
  let ports := cellPorts f op
  let c := x.cell
  let d := c.dig
  if x.elem.drain.isSome then x.drainStep env false ports ports rl SitePlane.resetCell
  else
    let t := operandTok x env f
    let open_ := d.hdrA.isSome
    let vals := ports.filter fun p => (x.head p).any fun h => h.kind = 0
    let supply := open_ && vals.length = 1 && ports.length = 2 && ports.all fun p => (x.head p).any fun h =>
      (h.kind = 0 && !h.err) || h.isStop
    let names := if supply then vals else ports
    match x.look env false names [0] rl with
    | .wait => none
    | .done y => some y
    | .go h =>
      if !env.free.contains 0 then none
      else if h.kind ≠ 0 then
        match d.hdrA, d.hdrB with
        | some ha, some hb =>
          if c.out = 0 then
            match sdFirstBad (if op = 0x3A then [d.plA, d.plB] else [d.plA]) with
            | some (j, i) => some (x.fail env false ports [0] rl 4 (j + 16 * i))
            | none => some ((x.setCell { c with out := 1 }).put false 0 rl (sdResult op c ha hb))
          else
            let y := sdEnd f env (x.eat names) h
            some (y.setCell { y.cell with out := 0 })
        | _, _ => some (sdEnd f env (x.eat names) h)
      else
        let fill := c.fill || fillOf x names
        let y := x.eat names
        if !open_ then some (y.setCell { c with fill := fill, dig := { d with hdrA := some (t 0), hdrB := some (t 1) } })
        else
          let plA := if names.contains 0 || srcOf f 0 ≠ 0 then d.plA ++ [t 0] else d.plA
          let plB := if op = 0x3A && (names.contains 1 || srcOf f 1 ≠ 0) then d.plB ++ [t 1] else d.plB
          some (y.setCell { c with fill := fill, dig := { d with plA := plA, plB := plB } })

/-- Whether SDCUT decides after the planes read so far (R191). -/
def sdDecides (m : BitVec 24) (h : Token) (pl : List Token) : Bool :=
  let k := pl.length
  let cap := opx m 0 4
  let lanes := (List.range 16).filter h.valid
  let v := fun i => let s := sdPrefix pl k i; (⟨s.k, s.e + (sdScale h i : Int) - 127⟩ : Dy)
  let e := fun i => (⟨1, -2 * (k : Int) + (sdScale h i : Int) - 127⟩ : Dy)
  (cap ≠ 0 && k = cap) ||
  (match opx m 4 2 with
    | 1 => lanes.all fun i => 0 ≤ (Dy.mk (v i).k.natAbs (v i).e).cmp (e i)
    | 2 => lanes.any fun a => lanes.all fun i =>
        i = a || 0 ≤ (Dy.add (v a) ⟨-(e a).k, (e a).e⟩).cmp (Dy.add (v i) (e i))
    | _ => false)

/-- SDCUT (R188, R191, R165). -/
def fireSdCut (f : FrameBits) (env : Env) (x : SitePlane) : Option SitePlane :=
  let rl := rlvlOf f
  let ports := cellPorts f 0x3B
  let c := x.cell
  let d := c.dig
  if x.elem.drain.isSome then x.drainStep env false ports ports rl SitePlane.resetCell
  else match x.look env false ports [0] rl with
  | .wait => none
  | .done y => some y
  | .go h =>
    let a := operandTok x env f 0
    if h.kind = 0 && d.hdrA.isSome && (d.cut || x.elem.skip) then some (x.eat ports)
    else if !env.free.contains 0 then none
    else
      let y := x.eat ports
      if h.kind ≠ 0 then some (sdEnd f env y h)
      else match d.hdrA with
        | none => some ((y.setCell { c with dig := { d with hdrA := some a } }).put false 0 rl { a with err := false })
        | some hd =>
          let pl := d.plA ++ [a]
          let now := sdDecides (modOf f) hd pl
          let z := (y.setCell { c with dig := { d with plA := pl, cut := now } }).put false 0 rl { a with err := false }
          some (if now then z.ask else z)

/-- One firing of a compute cell, by its opcode (R171). -/
def cellStep (op : Nat) (f : FrameBits) (env : Env) (x : SitePlane) : Option SitePlane :=
  match op with
  | 0x38 => fireSdOnline op f env x
  | 0x39 => fireSdOnline op f env x
  | 0x3A => fireSdForm op f env x
  | 0x3C => fireSdForm op f env x
  | 0x3B => fireSdCut f env x
  | _ => fireCell op f env x

end Sys2Proof.Machine
end

