-- ==== Sys2Proof/Machine/Fibres.lean ====
section
/-! DEFINITION. The firings of fibre cells (10 R207-R217). -/

namespace Sys2Proof.Machine

/-- The fibre cell replaced. -/
def SitePlane.setFibre (x : SitePlane) (q : Fibre) : SitePlane := { x with fibre := q }
/-- The fibre cell after reset (R98). -/
def SitePlane.resetFibre (x : SitePlane) : SitePlane := x.setFibre .reset

/-- Whether a scan of masks reads two of them (R208). -/
def scanTwo (f : FrameBits) : Bool := (modOf f).getLsbD 0
/-- The ports of a fibre opcode (R207, R208). -/
def fibrePorts (op : Nat) (f : FrameBits) : List Nat :=
  match op with
  | 0x52 => if scanTwo f then [0, 1] else [0]
  | 0x53 => if scanTwo f then [0, 1] else [0]
  | 0x54 => [0, 1] | 0x55 => [0, 1] | 0x56 => [0, 1]
  | _ => [0]

/-- An integer lane of a token. -/
def Token.int (t : Token) (i : Nat) : Int := sint32 (t.lane i)
/-- A token of integer lanes (R209). -/
def intTok (vs : List Int) : Token :=
  valueTok (BitVec.ofNat 16 (2 ^ vs.length - 1)) false fun i => intOut (vs.getD i 0) false

/-- The set bits of a mask token, ascending (R209). -/
def maskBits (t : Token) : List Nat :=
  (List.range 512).filter fun b => t.valid (b / 32) && (t.lane (b / 32)).getLsbD (b % 32)

/-- A malformation of R217 at port p. -/
def fibreFail (f : FrameBits) (env : Env) (x : SitePlane) (ports : List Nat) (cause : Byte) (p : Nat) : SitePlane :=
  x.fail env false ports [0] (rlvlOf f) cause (p * 4096)

/-- Heads consumed and a token emitted; a closing token of the reset level or above resets the cell (R98). -/
def fibreEmit (f : FrameBits) (env : Env) (x : SitePlane) (ports : List Nat) (q : Fibre) (t : Token) : SitePlane :=
  let y := ((x.eat ports).put false 0 (rlvlOf f) t).setFibre q
  if t.closes then (if closesAt t (rlvlOf f) then y.resetFibre else y).windowMark env false t else y

/-- FSCAND and FSCANC (R210). -/
def fireScan (op : Nat) (f : FrameBits) (env : Env) (x : SitePlane) (a : Token) : SitePlane :=
  let q := x.fibre
  if a.closes then fibreEmit f env x [0] .reset a.bare
  else
    let n := if op = 0x50 then a.int 1 - a.int 0 else a.int 1
    if n < 0 then fibreFail f env x [0] 3 0
    else if (q.i : Int) < n then
      (x.put false 0 (rlvlOf f) (intTok [a.int 0 + q.i, q.i])).setFibre { q with i := q.i + 1 }
    else ((x.eat [0]).put false 0 (rlvlOf f) (stopTok (lvlField (modOf f)))).setFibre .reset

/-- One index token of a mask scan: index, ordinal, and the positions in the operands' value arrays (R212). -/
def scanTok (two : Bool) (base : Nat) (q : Fibre) (la lb : List Nat) (b : Nat) : Token :=
  let pos := fun (l : List Nat) (p : Nat) => if l.contains b then ((p + (l.filter (· < b)).length : Nat) : Int) else -1
  if two then intTok [(base + b : Nat), q.n, pos la q.pa, pos lb q.pb] else intTok [(base + b : Nat), q.n]

/-- One firing on the mask words of one token or leaf: the next set bit of the combination is emitted; the ports are
consumed with the last one (R211, R212). -/
def scanMask (f : FrameBits) (x : SitePlane) (ports : List Nat) (base : Nat) (la lb : List Nat)
    (after : Fibre → Fibre) : SitePlane :=
  let q := x.fibre
  let two := scanTwo f
  let all := if !two then la
    else if (modOf f).getLsbD 1 then (List.range 512).filter fun b => la.contains b || lb.contains b
    else la.filter lb.contains
  let rest := all.filter (q.i ≤ ·)
  let close := fun (q1 : Fibre) =>
    after { q1 with i := 0, j := q1.j + 1, pa := q1.pa + la.length, pb := q1.pb + lb.length }
  match rest with
  | [] => (x.eat ports).setFibre (close q)
  | b :: more =>
    let t := scanTok two base q la lb b
    let q1 := { q with n := q.n + 1, i := b + 1 }
    let y := x.put false 0 (rlvlOf f) t
    if more.isEmpty then (y.eat ports).setFibre (close q1) else y.setFibre q1

/-- FSCANB (R211, R212). -/
def fireScanB (f : FrameBits) (env : Env) (x : SitePlane) (ports : List Nat) (h : Token) : SitePlane :=
  if h.closes then fibreEmit f env x ports .reset h.bare
  else
    let bits := fun p => match x.head p with | some t => maskBits t | none => []
    scanMask f x ports (512 * x.fibre.j) (bits 0) (if scanTwo f then bits 1 else []) id

/-- FSCANT (R211, R212): roots first, then one leaf for each root bit. -/
def fireScanT (f : FrameBits) (env : Env) (x : SitePlane) (ports : List Nat) : Option SitePlane :=
  let q := x.fibre
  let two := scanTwo f
  let bits := fun p => match x.head p with | some t => maskBits t | none => []
  match q.rootA with
  | none =>
    match x.look env false ports [0] (rlvlOf f) with
    | .wait => none
    | .done y => some y
    | .go h =>
      if h.closes then some (fibreEmit f env x ports .reset h.bare)
      else some ((x.eat ports).setFibre { q with rootA := some (bits 0), rootB := some (if two then bits 1 else []) })
  | some ra =>
    let rb := q.rootB.getD []
    match ra.head?, rb.head? with
    | none, none =>
      -- every leaf has been read: the fibre's closing token is due at every port
      match ports.mapM x.head with
      | none => none
      | some hs =>
        match ports.find? fun p => (x.head p).any fun h => h.kind = 0 with
        | some p => some (fibreFail f env x ports 5 p)
        | none => match hs with
          | [] => none
          | h :: r =>
            if r.all fun t => t.kind = h.kind then some (fibreEmit f env x ports .reset h.bare)
            else some (x.fail env false ports [0] (rlvlOf f) 1 (shapeDetail x ports))
    | a, b =>
      let r := match a, b with
        | some i, some j => min i j
        | some i, none => i
        | none, some j => j
        | none, none => 0
      let useA := a = some r
      let useB := b = some r
      let due := (if useA then [0] else []) ++ (if useB then [1] else [])
      match due.mapM x.head with
      | none => none
      | some _ =>
        match due.find? fun p => (x.head p).any (·.closes) with
        | some p => some (fibreFail f env x ports 5 p)
        | none => some (scanMask f x due (512 * r) (if useA then bits 0 else []) (if useB then bits 1 else []) fun q1 =>
            { q1 with rootA := some (if useA then ra.tail else ra), rootB := some (if useB then rb.tail else rb) })

/-- Whether a coordinate does not rise in its fibre (R213). -/
def notRising (prev : Option Int) (c : Int) : Bool := match prev with
  | some p => decide (c ≤ p)
  | none => false

/-- FISECT and FUNION (R213). -/
def fireMeet (op : Nat) (f : FrameBits) (env : Env) (x : SitePlane) (a b : Token) : SitePlane :=
  let q := x.fibre
  let union := op = 0x55
  let ca := a.int 0
  let cb := b.int 0
  let stepA := fun (q1 : Fibre) => { q1 with pa := q1.pa + 1, ca := some ca }
  let stepB := fun (q1 : Fibre) => { q1 with pb := q1.pb + 1, cb := some cb }
  let onlyA := if notRising q.ca ca then fibreFail f env x [0, 1] 2 0
    else if union then fibreEmit f env x [0] (stepA q) (intTok [ca, q.pa, -1])
    else (x.eat [0]).setFibre (stepA q)
  let onlyB := if notRising q.cb cb then fibreFail f env x [0, 1] 2 1
    else if union then fibreEmit f env x [1] (stepB q) (intTok [cb, -1, q.pb])
    else (x.eat [1]).setFibre (stepB q)
  if a.kind = 0 && b.kind = 0 then
    if ca = cb then
      if notRising q.ca ca then fibreFail f env x [0, 1] 2 0
      else if notRising q.cb cb then fibreFail f env x [0, 1] 2 1
      else fibreEmit f env x [0, 1] (stepA (stepB q)) (intTok [ca, q.pa, q.pb])
    else if ca < cb then onlyA else onlyB
  else if a.kind = 0 then onlyA
  else if b.kind = 0 then onlyB
  else if a.kind = b.kind then fibreEmit f env x [0, 1] .reset a.bare
  else x.fail env false [0, 1] [0] (rlvlOf f) 1 (shapeDetail x [0, 1])

/-- FREPEAT (R214). -/
def fireRepeat (f : FrameBits) (env : Env) (x : SitePlane) (h : Token) : SitePlane :=
  let q := x.fibre
  if h.closes then fibreEmit f env x [0, 1] .reset h.bare
  else match x.head 0, x.head 1 with
    | some a, some b =>
      if b.int 0 < 0 then fibreFail f env x [0, 1] 6 1
      else if (q.i : Int) < b.int 0 then (x.put false 0 (rlvlOf f) a).setFibre { q with i := q.i + 1 }
      else ((x.eat [0, 1]).put false 0 (rlvlOf f) (stopTok (lvlField (modOf f)))).setFibre .reset
    | _, _ => x

/-- The lane a reduction starts from (R215). -/
def redStart (op : Nat) : Lane := match op with
  | 1 => wInf true
  | 2 => wInf false
  | _ => 0

/-- FREDUCE (R215). -/
def fireReduce (f : FrameBits) (env : Env) (x : SitePlane) (a : Token) : SitePlane :=
  let q := x.fibre
  let op := opx (modOf f) 0 2
  let result := valueTok q.mask false fun i => q.acc.getD i (redStart op)
  if a.kind = 0 then
    (x.eat [0]).setFibre { q with
      acc := lanesOf fun i =>
        let v := q.acc.getD i (redStart op)
        if a.valid i then redOp op (modRnd (modOf f)) v (a.lane i) else v
      mask := q.mask ||| a.mask, seen := true }
  else if a.isStop && a.level = 0 then
    let y := ((x.eat [0]).put false 0 (rlvlOf f) result).resetFibre
    y.windowMark env false a
  else if !q.out && (a.isStop || q.seen) then (x.put false 0 (rlvlOf f) result).setFibre { q with out := true }
  else
    let y := ((x.eat [0]).put false 0 (rlvlOf f) (if a.isStop then stopTok (a.level - 1) else doneTok)).resetFibre
    y.windowMark env false a

/-- FDROP (R216). -/
def fireDrop (f : FrameBits) (env : Env) (x : SitePlane) (a : Token) : Option SitePlane :=
  let q := x.fibre
  let lvl := opx (modOf f) 0 3
  let zm := (modOf f).getLsbD 3
  let free := env.free.contains 0
  if !free then none
  else if a.kind = 0 then
    if zm && a.mask = 0 then some (x.eat [0])
    else some (fibreEmit f env x [0] { q with open_ := true } a)
  else if a.isStop && a.level ≤ lvl && !q.open_ then some (x.eat [0])
  else some (fibreEmit f env x [0] { q with open_ := false } a.bare)

/-- One firing of a fibre cell, by its opcode (R207). -/
def fibreStep (op : Nat) (f : FrameBits) (env : Env) (x : SitePlane) : Option SitePlane :=
  let ports := fibrePorts op f
  let free := env.free.contains 0
  if x.elem.drain.isSome then x.drainStep env false ports ports (rlvlOf f) SitePlane.resetFibre
  else match x.errPort ports with
  | some (p, t) => if free then some (x.forward false p [0] (rlvlOf f) t) else none
  | none =>
    if !free then none
    else if op = 0x53 then fireScanT f env x ports
    else if op = 0x54 || op = 0x55 then
      match x.head 0, x.head 1 with
      | some a, some b => some (fireMeet op f env x a b)
      | _, _ => none
    else match x.look env false ports [0] (rlvlOf f) with
      | .wait => none
      | .done y => some y
      | .go h => match op with
        | 0x50 => some (fireScan op f env x h)
        | 0x51 => some (fireScan op f env x h)
        | 0x52 => some (fireScanB f env x ports h)
        | 0x56 => some (fireRepeat f env x h)
        | 0x57 => some (fireReduce f env x h)
        | 0x58 => fireDrop f env x h
        | _ => none

end Sys2Proof.Machine
end

