-- ==== Sys2Proof/Machine/Loop.lean ====
section
/-! DEFINITION. The generation loop's generators: PLEAT and RINGPUT (20 R383-R392). -/

namespace Sys2Proof.Machine

/-! ### Lattices (R383-R385) -/

/-- One node of a topology table (R383). -/
structure LatticeNode where
  token : Nat
  par0  : Nat
  par1  : Nat
  npar  : Nat
  deriving DecidableEq, Repr

/-- The node that an entry holds. -/
def nodeOf (v : Nat) : LatticeNode := ⟨bits v 0 32, bits v 32 6, bits v 40 6, bits v 48 2⟩

/-- Whether entry i of a table keeps to R383 and R384. -/
def nodeOk (i v : Nat) : Bool :=
  let n := nodeOf v
  bits v 38 2 = 0 && bits v 46 2 = 0 && bits v 50 14 = 0 &&
  (if i = 0 then n.npar = 0 && n.par1 = 0
   else (n.npar = 1 || n.npar = 2) && decide (n.par0 < i) &&
     (if n.npar = 2 then decide (n.par1 < i) && n.par1 ≠ n.par0 else n.par1 = 0))

/-- How many paths end at each node (R385). -/
def pathCounts (ns : List LatticeNode) : List Nat :=
  ns.foldl (fun c n => c ++ [if c.isEmpty then 1
    else c.getD n.par0 0 + (if n.npar = 2 then c.getD n.par1 0 else 0)]) []

/-- The paths that end at each node (R385). -/
def pathsOf (ns : List LatticeNode) : List (List (List Nat)) :=
  ns.foldl (fun ps n =>
    let i := ps.length
    ps ++ [if i = 0 then [[0]]
      else (ps.getD n.par0 []).map (· ++ [i]) ++ (if n.npar = 2 then (ps.getD n.par1 []).map (· ++ [i]) else [])]) []

/-- The leaves of a lattice, ascending (R385). -/
def leavesOf (ns : List LatticeNode) : List Nat :=
  (List.range ns.length).filter fun i => ns.all fun n => !(n.npar ≠ 0 && n.par0 = i) && !(n.npar = 2 && n.par1 = i)

/-- What a table gives: its rows and nodes, or the cause and the node that decides (R384). -/
def latticeRows (vs : List Nat) : (List LatticeNode × List (List Nat)) ⊕ (Byte × Nat) :=
  match vs.zipIdx.find? fun p => !nodeOk p.2 p.1 with
  | some p => .inr (0x63, p.2)
  | none =>
    let ns := vs.map nodeOf
    let cnt := pathCounts ns
    if 128 < ((leavesOf ns).map fun l => cnt.getD l 0).foldl (· + ·) 0 then .inr (0x64, 0xFF)
    else .inl (ns, (leavesOf ns).flatMap fun l => (pathsOf ns).getD l [])

/-- A 32-bit pattern as an integer lane. -/
def lane32 (v : Nat) : Lane := (BitVec.ofNat 32 v).signExtend 40

/-- The token of an item of a row (R387). -/
def pleatItem (mode : Bool) (ns : List LatticeNode) (p0 : Int) (row depth node : Nat) : Token :=
  if mode then valueTok 3 false fun i =>
    let m := 2 ^ (depth + 1) - 1
    if i = 0 then lane32 (m % 2 ^ 32) else lane32 (m / 2 ^ 32)
  else valueTok 0xF false fun i => match i with
    | 0 => lane32 (match ns[node]? with | some n => n.token | none => 0)
    | 1 => lane32 node
    | 2 => intOut (p0 + depth) false
    | _ => lane32 row

/-- PLEAT (R384, R387). -/
def gpleat (g : GenAt) : GM Unit := ginput g fun t => do
  let q ← ggen g
  if t.closes then
    gtake g
    gemit g (if t.isDone then doneTok else stopTok (min 5 (t.level + 2)))
  else if !(t.valid 0 && t.valid 1 && t.valid 2) then gshape t
  else
    let a := uint32 (t.lane 0) + 2 ^ 32 * (uint32 (t.lane 1) % 2 ^ 20)
    if a % 8 ≠ 0 ∨ 2 ^ 52 < a + 8 then gfail (.bad 0x26 0 a)
    else
      let h ← gnat g a 8
      let n := h % 128
      if n = 0 ∨ 64 < n ∨ h / 128 ≠ 0 then gfail (.bad 0x63 0xFF)
      else if 2 ^ 52 < a + 8 + 8 * n then gfail (.bad 0x26 0 a)
      else
        let vs ← (List.range n).mapM fun i => gnat g (a + 8 + 8 * i) 8
        match latticeRows vs with
        | .inr (c, d) => gfail (.bad c d)
        | .inl (ns, rows) =>
          gopen g
          rows.zipIdx.forM fun (r : List Nat × Nat) => do
            r.1.zipIdx.forM fun (i : Nat × Nat) =>
              gload g (pleatItem (q.f.getLsbD 0) ns (sint32 (t.lane 2)) r.2 i.2 i.1)
            gemit g (stopTok (if r.2 + 1 = rows.length then 1 else 0))
          gtake g

def execPleat (g : GenAt) (s : State) : Answer := s.genTurn g 0x14 (gpleat g)

/-! ### RINGPUT (R388-R392) -/

/-- A slot table entry as read (R388). -/
structure SlotEntry where
  ring : Nat
  ctl  : Nat
  logn : Nat
  st   : Nat
  pos  : Nat
  last : Nat
  deriving DecidableEq, Repr

/-- The entry that 64 bytes hold, where they keep to R388. -/
def slotEntry (bs : List Byte) : Option SlotEntry :=
  let e : SlotEntry := ⟨byteNat bs 0 8, byteNat bs 8 8, byteNat bs 16 1, byteNat bs 17 1, byteNat bs 20 4, byteNat bs 24 4⟩
  if e.ring % 4 = 0 ∧ e.ring < 2 ^ 52 ∧ e.ctl % 64 = 0 ∧ e.ctl < 2 ^ 52 ∧ 1 ≤ e.logn ∧ e.logn ≤ 20 ∧ e.st ≤ 2 ∧
    byteNat bs 18 2 = 0 then some e else none

/-- Memory with the stores that a generator's pocket holds: of its open window, and of windows that it has ended and that have not
drained (R392, R404). -/
def State.withOwn (s : State) (g : GenAt) : State :=
  (s.graph g.graph).pocket.foldl (fun t e => if e.gen = g.gen.val then t.storeBytes e.pas e.data else t) s

/-- The rows of a fibre's items: each closed by S0, the last by the fibre's end (R389). -/
def rowsOf : List Token → List Token → List (List Token)
  | [], cur => if cur.isEmpty then [] else [cur]
  | t :: r, cur => if t.closes then cur :: rowsOf r [] else rowsOf r (cur ++ [t])

/-- Whether the items of the rows keep to R389. -/
def itemsOk (pos : Nat) (rows : List (List Token)) : Bool :=
  rows.all fun r => r.zipIdx.all fun i =>
    i.1.valid 0 && i.1.valid 1 && i.1.valid 2 && sint32 (i.1.lane 2) = (pos + 1 + i.2 : Nat)

/-- The accepted length of a row: its items whose target equals the draft (R390). -/
def accepted : List Token → Nat
  | [] => 0
  | [_] => 0
  | t :: r => if uint32 (t.lane 0) = uint32 (t.lane 1) then accepted r + 1 else 0

/-- The row that wins, the earlier on a tie: its accepted tokens and the bonus (R390). -/
def bestRow (rows : List (List Token)) : List Token :=
  let b := rows.foldl (fun (b : Option (Nat × List Token)) r =>
    if r.isEmpty then b else match b with
      | none => some (accepted r, r)
      | some c => if c.1 < accepted r then some (accepted r, r) else b) none
  match b with
  | some c => c.2.take (c.1 + 1)
  | none => []

/-- The free entries of a ring (R390). -/
def ringFree (logn head tail : Nat) : Nat :=
  let used := (tail + 2 ^ 32 - head) % 2 ^ 32
  if 2 ^ logn < used then 0 else 2 ^ logn - used

/-- The status token of a fibre (R391). -/
def statusTok (q k pos last st : Nat) : Token := valueTok 0x1F false fun i => match i with
  | 0 => lane32 q | 1 => lane32 k | 2 => lane32 pos | 3 => lane32 last | _ => lane32 st

/-- The fibre of a slot complete: the commit of R390 and the states of R391. -/
def gcommit (g : GenAt) (slot : Token) (items : List Token) : GM Unit := do
  let q ← ggen g
  let no := (sint32 (slot.lane 0)).toNat
  let a := gBase q.f + 64 * no
  let own := fun (s : State) => s.withOwn g
  let bs ← gunder own (gread g a 64)
  match slotEntry bs with
  | none => gfail (.bad 0x31 no)
  | some e =>
    let rows := rowsOf items []
    if !itemsOk e.pos rows then gfail (.bad 0x0A 0)
    else
      let done := fun (k pos last st : Nat) => gload g (statusTok no k pos last st)
      if e.st = 0 then done 0 e.pos e.last 2
      else
        let head ← gnat g e.ctl 4
        let tail ← gunder own (gnat g (e.ctl + 4) 4)
        let free := ringFree e.logn head tail
        if e.st = 2 then
          if free = 0 then done 0 e.pos e.last 1
          else
            gput g (a + 17) (leBytes 1 1) .plain
            done 0 e.pos e.last 3
        else
          let best := bestRow rows
          let n := best.length
          let k := min n free
          let toks := (best.take k).map fun t => uint32 (t.lane 0)
          toks.zipIdx.forM fun (p : Nat × Nat) => gput g (e.ring + 4 * ((tail + p.2) % 2 ^ e.logn)) (leBytes 4 p.1) .plain
          gput g (e.ctl + 4) (leBytes 4 (tail + k)) .release
          let pos := (e.pos + k) % 2 ^ 32
          let last := if 0 < k then toks.getLastD 0 else e.last
          gput g (a + 20) (leBytes 4 pos) .plain
          if 0 < k then gput g (a + 24) (leBytes 4 last) .plain else pure ()
          if k < n then gput g (a + 17) (leBytes 1 2) .plain else pure ()
          done k pos last (if k < n then 1 else 0)

/-- RINGPUT (R389-R392). -/
def gringput (g : GenAt) : GM Unit := ginput g fun t => do
  let q ← ggen g
  match q.part.first with
  | none =>
    if t.isDone then gpass g t
    else if t.closes then
      if 2 ≤ t.level then
        gtake g
        gemit g (stopTok (t.level - 2))
      else gshape t
    else if !t.valid 0 then gshape t
    else
      let no := sint32 (t.lane 0)
      if 0 ≤ no ∧ no < (gImm q.f 0 13 : Nat) ∧ vaOk (gBase q.f + 64 * no) 64 then
        gtake g
        gpart g fun p => { p with first := some t, toks := [] }
      else gfail (.bad 0x26 0 ((gBase q.f + 64 * no : Int) % (2 : Int) ^ 52).toNat)
  | some slot =>
    if t.kind = 0 || (t.isStop && t.level = 0) then
      gtake g
      gpart g fun p => { p with toks := p.toks ++ [t] }
    else
      gopen g
      gcommit g slot q.part.toks
      if t.isDone then gemit g doneTok
      else if 2 ≤ t.level then gemit g (stopTok (t.level - 2)) else pure ()
      gpart g fun p => { p with first := none, toks := [] }
      gtake g

def execRingput (g : GenAt) (s : State) : Answer := s.genTurn g 0x15 (gringput g)

end Sys2Proof.Machine
end

