-- ==== Sys2Proof/Machine/Engine.lean ====
section
/-! DEFINITION. Engine requests, the collective engine, and egress (16 R320, R321; 19 R371-R375). -/

namespace Sys2Proof.Machine

/-! ### REQ (R320, R405) -/

/-- ENG (R320). -/
def reqEngine (f : FrameBits) : Nat := fld f 0 4
/-- The endpoint of an ENG 1 request (R320). -/
def reqEndpoint (f : FrameBits) : BitVec 6 := BitVec.ofNat 6 (fld f 4 6)

/-- Before a request leaves, every store held is performed, and the windows that hold stores and the present one are not
replayable any more; whether they all are: a frame may still wait for its ring (R289, R320, R405). -/
def grelease (g : GenAt) : GM Bool := fun s =>
  let s1 := s.updGraph g.graph fun x =>
    (x.pocket.map (·.win)).foldl Graph.kill (x.kill (x.genOf g.gen.val).win)
  let s2 := s1.drainAll g.graph
  .ok ((s2.graph g.graph).pocket.isEmpty, s2)

/-- REQ (R320, R371). Only a request of the collective engine needs both its lanes valid. -/
def greq (g : GenAt) : GM Unit := ginput g fun t => do
  let q ← ggen g
  match q.part.first with
  | none =>
    -- a fibre closed without a value token is a request of another shape
    if t.isStop && t.level = 0 then gshape t
    else if t.closes then gpass g t
    else if reqEngine q.f = 1 || (t.valid 0 && t.valid 1) then
      gtake g
      gpart g fun p => { p with first := some t }
    else gshape t
  | some r =>
    if !(t.isStop && t.level = 0) then gshape t
    else
      gopen g
      if reqEngine q.f = 1 then
        let full ← fun s => .ok (s.fullAt q.core (reqEndpoint q.f), s)
        if full then pure ()
        else if !(← grelease g) then pure ()
        else
          let m := BitVec.ofNat 63 (uint32 (r.lane 1) % 2 ^ 31 * 2 ^ 32 + uint32 (r.lane 0))
          fun s => .ok ((), s.deliver q.core (reqEndpoint q.f) m)
          gload g (valueTok 1 false fun _ => 0)
          gemit g (stopTok 0)
          gpart g fun p => { p with first := none }
          gtake g
      else if !(← grelease g) then pure ()
      else
        fun s =>
          let x := s.graph g.graph
          let y := x.genOf g.gen.val
          .ok ((), s.setGraph g.graph { x.setGen g.gen.val { y with
            line := y.line ++ [.of r false (some x.nextId)], reqs := y.reqs ++ [r] } with nextId := x.nextId + 1 })
        gpart g fun p => { p with first := none }
        gtake g

def execReq (g : GenAt) (s : State) : Answer := s.genTurn g 0x0C (greq g)

/-! ### Descriptors (R372) -/

abbrev CollDesc := List Byte
def CollDesc.src (d : CollDesc) : Nat := byteNat d 0 8
def CollDesc.dst (d : CollDesc) : Nat := byteNat d 8 8
def CollDesc.count (d : CollDesc) : Nat := byteNat d 16 4
def CollDesc.op (d : CollDesc) : Nat := byteNat d 20 1
def CollDesc.dt (d : CollDesc) : Nat := byteNat d 21 1
def CollDesc.ranks (d : CollDesc) : Nat := byteNat d 22 2
def CollDesc.rank (d : CollDesc) : Nat := byteNat d 24 2
def CollDesc.tag (d : CollDesc) : Nat := byteNat d 26 2
def CollDesc.memb (d : CollDesc) : Nat := byteNat d 32 8
/-- e, the element size of DT (R373). -/
def CollDesc.esize (d : CollDesc) : Nat := if d.dt = 1 then 2 else 4

/-- Bytes of a member's source and destination (R373). -/
def CollDesc.srcLen (d : CollDesc) : Nat := d.count * d.esize * (if d.op = 0 then d.ranks else 1)
def CollDesc.dstLen (d : CollDesc) : Nat := d.count * d.esize * (if d.op = 0 then 1 else d.ranks)

/-- Whether a descriptor keeps to R372, with its buffers and table inside the virtual range (log entry 78). -/
def descOk (d : CollDesc) : Bool :=
  decide (d.src < 2 ^ 52 ∧ d.dst < 2 ^ 52 ∧ 1 ≤ d.count ∧ d.count ≤ 2 ^ 28 ∧ d.op ≤ 1 ∧ d.dt ≤ 2 ∧ 2 ≤ d.ranks ∧
    d.ranks ≤ 256 ∧ d.rank < d.ranks ∧ d.memb < 2 ^ 52) && zeroAt d 28 4 && zeroAt d 40 24 &&
  decide (d.src + d.srcLen ≤ 2 ^ 52 ∧ d.dst + d.dstLen ≤ 2 ^ 52 ∧ d.memb + d.ranks ≤ 2 ^ 52)

/-! ### The engine's accesses -/

/-- The physical addresses of n bytes for an engine, or the cause that stops it (R263, R375). No entry maps what lies beyond the
virtual range (log entry 78). -/
def State.enginePas (s : State) (asid : Byte) (kind : Access) : Nat → Nat → Nat → Except Byte (List Nat)
  | 0, _, _ => .ok []
  | fuel + 1, va, n =>
    if n = 0 then .ok []
    else if 2 ^ 52 ≤ va then .error 0x21
    else match s.walk asid va with
      | .fault c => .error c
      | .leaf lvl p =>
        let t := mkTlb asid va lvl p
        match permFabric t.leaf kind with
        | some c => .error c
        | none =>
          let m := min n (65536 - va % 65536)
          match s.enginePas asid kind fuel (va + m) (n - m) with
          | .ok r => .ok (addrs (t.pa va) m ++ r)
          | .error c => .error c

/-- n bytes read by an engine. -/
def State.engineRead (s : State) (asid : Byte) (va n : Nat) : Except Byte (List Byte) :=
  match s.enginePas asid .load (n / 65536 + 2) va n with
  | .error c => .error c
  | .ok pas => match s.undeliverables pas with
    | some c => .error c
    | none => .ok (s.bytesAt pas)

/-- The response that a member's item receives: status and detail, then S0 (R371). -/
def State.collAnswer (s : State) (r : CollReq) (status detail : Nat) : State :=
  let t := valueTok 3 false fun i => if i = 0 then BitVec.ofNat 40 status else BitVec.ofNat 40 detail
  let keep := s.colls.filter fun q => !(q.src = r.src && q.item = r.item)
  let s1 := { s with colls := keep }
  let fill := fun (i : Item) => if i.wait = some r.item then [Item.of t false, Item.of (stopTok 0) true] else [i]
  s1.updGen r.src fun q => { q with line := q.line.flatMap fill }

/-- One answer to several members. -/
def State.collAnswers (s : State) (rs : List CollReq) (status detail : Nat) : State :=
  rs.foldl (fun t r => t.collAnswer r status detail) s

/-- Whether two requests differ in a field that must match (R372). -/
def collDisagree (a b : CollReq) : Bool :=
  CollDesc.op a.desc ≠ CollDesc.op b.desc || CollDesc.dt a.desc ≠ CollDesc.dt b.desc ||
  CollDesc.count a.desc ≠ CollDesc.count b.desc || CollDesc.ranks a.desc ≠ CollDesc.ranks b.desc ||
  CollDesc.rank a.desc = CollDesc.rank b.desc || a.memb ≠ b.memb

/-- The requests of one collective: the same TAG, and member tables that are equal or share a member (R372, R376). -/
def collSame (a b : CollReq) : Bool :=
  CollDesc.tag a.desc = CollDesc.tag b.desc && (a.memb = b.memb || a.memb.any b.memb.contains)

/-- The members of the collective that a request would join, as far as what has been read of it says: its TAG, and its member
table unless that cannot be read (R372). -/
def State.collPeers (s : State) (r : CollReq) : List CollReq :=
  s.colls.filter fun q => if r.memb.isEmpty then CollDesc.tag q.desc = CollDesc.tag r.desc else collSame r q

/-- A request taken by its die's engine: its descriptor and member table are read and checked; a failure answers every member
that waits (R371, R372, R375). -/
def State.collTake (s : State) (g : GenAt) (item : Nat) (t : Token) : State :=
  let x := s.graph g.graph
  let die : Fin 4 := Fin.ofNat 4 ((s.gen g).core.val / 64)
  let a := uint32 (t.lane 0) + 2 ^ 32 * (uint32 (t.lane 1) % 2 ^ 20)
  let r0 : CollReq := ⟨g, item, die, x.asid, [], [], s.cycle⟩
  let fail := fun (r : CollReq) (status detail : Nat) => s.collAnswers (s.collPeers r ++ [r]) status detail
  if a % 64 ≠ 0 then s.collAnswer r0 0x29 1
  else match s.engineRead x.asid a 64 with
  | .error c => let (n, s1) := s.choose 256; s1.collAnswer r0 c.toNat n
  | .ok d =>
    let r1 := { r0 with desc := d }
    if !descOk d then fail r1 0x29 1
    else match s.engineRead x.asid (CollDesc.memb d) (CollDesc.ranks d) with
      | .error c => fail r1 c.toNat (CollDesc.rank d)
      | .ok m =>
        let r := { r1 with memb := m }
        let own : Byte := BitVec.ofNat 8 (4 * s.modnum + die.val)
        if m.getD (CollDesc.rank d) 0 ≠ own then fail r 0x29 1
        else
          let peers := s.collPeers r
          let s1 := { s with colls := s.colls ++ [r] }
          if peers.any (collDisagree r) then s1.collAnswers (peers ++ [r]) 0x29 2 else s1

/-- COLLECTIVE_REQUEST: the oldest request that a generator has sent reaches its engine (R371). -/
def execCollectiveRequest (g : GenAt) (s : State) : Answer :=
  let q := s.gen g
  match q.reqs, q.line.findSome? fun i => match i.wait with
      | some id => if s.colls.any fun r => r.src = g && r.item = id then none else some id
      | none => none with
  | t :: rest, some id => .next ((s.updGen g fun q => { q with reqs := rest }).collTake g id t)
  | _, _ => .next s

/-! ### Completion (R373-R375) -/

/-- add_dt (R373). -/
def addDt (dt a b : Nat) : Nat :=
  let f := if dt = 0 then fmtFp32 else fmtBf16
  if dt = 2 then (a + b) % 2 ^ 32
  else
    let x := f.read a
    let y := f.read b
    let both := x.isZero && y.isZero && x.sgn && y.sgn
    (f.store (if both then .fin true 0 0 else sumNum x y) false).1

/-- The elements of a buffer. -/
def elemsOf (e : Nat) : Nat → List Byte → List Nat
  | 0, _ => []
  | n + 1, bs => leNat (bs.take e) :: elemsOf e n (bs.drop e)

/-- What a collective writes to rank r, from all sources by rank (R373). -/
def collOut (d : CollDesc) (srcs : List (List Byte)) (r : Nat) : List Byte :=
  if d.op = 1 then srcs.flatten
  else
    let n := d.count
    let shard := fun (b : List Byte) => elemsOf d.esize n (b.drop (r * n * d.esize))
    let sum := match srcs with
      | [] => []
      | b :: bs => bs.foldl (fun (acc : List Nat) c => (acc.zip (shard c)).map fun (p : Nat × Nat) => addDt d.dt p.1 p.2) (shard b)
    sum.flatMap (leBytes d.esize)

/-- Whether a member's destination overlaps a member's source other than by the in-place all-gather (R373). -/
def collOverlap (rs : List CollReq) : Bool :=
  rs.any fun a => rs.any fun b =>
    let da : CollDesc := a.desc
    let db : CollDesc := b.desc
    let hit := decide (da.dst < db.src + db.srcLen ∧ db.src < da.dst + da.dstLen)
    let own := fun (r : CollReq) => let d : CollDesc := r.desc; decide (d.src = d.dst + d.rank * d.count * d.esize)
    a.asid = b.asid && hit && !(da.op = 1 && rs.all own)

/-- The writes of every member performed; bytes that a barrier line or a stamped range refuses are discarded. -/
def State.collWrite (s : State) (outs : List (List Nat × List Byte)) : State :=
  outs.foldl (fun t p =>
    let ok := (p.1.zip p.2).filter fun b => (t.storeRefused [b.1]).isNone && (t.unstorable [b.1]).isNone
    t.storeBytes (ok.map (·.1)) (ok.map (·.2))) s

/-- The first rank whose DST has bytes that are refused, with the cause (R332, R474). -/
def State.collRefused (s : State) (outs : List (List Nat × List Byte)) : Option (Byte × Nat) :=
  outs.zipIdx.findSome? fun p => ((s.storeRefused p.1.1).orElse fun _ => s.unstorable p.1.1).map fun c => (c, p.2)

/-- The members of a collective in rank order, once all have arrived. -/
def State.collMembers (s : State) (r : CollReq) : Option (List CollReq) :=
  (List.range (CollDesc.ranks r.desc)).mapM fun n =>
    s.colls.find? fun q => CollDesc.tag q.desc = CollDesc.tag r.desc && q.memb = r.memb && CollDesc.rank q.desc = n

/-- The first rank whose access fails, with its cause, else what all of them gave. -/
def firstError {α : Type} : Nat → List (Except Byte α) → Except (Byte × Nat) (List α)
  | _, [] => .ok []
  | n, .error c :: _ => .error (c, n)
  | n, .ok a :: r => match firstError (n + 1) r with
    | .ok l => .ok (a :: l)
    | .error e => .error e

/-- The n elements of e bytes that a buffer holds. -/
def chunksOf (e n : Nat) (bs : List Byte) : List (List Byte) := (List.range n).map fun i => (bs.drop (i * e)).take e

/-- The elements that DST of rank r may hold anew, by index: none where a source of the element cannot be read or its member
has not come (R373). -/
def collElems (d : CollDesc) (srcs : List (Option (List Byte))) (r : Nat) : List (Option (List Byte)) :=
  let whole := fun (b : Option (List Byte)) => match b with
    | some bs => (chunksOf d.esize d.count bs).map some
    | none => List.replicate d.count none
  if d.op = 1 then srcs.flatMap whole else whole ((srcs.mapM id).map fun bs => collOut d bs r)

/-- DST of a member of a failed collective: which of its elements are new already is open (R375, log entry 2). `s` is the
module as the collective failed. -/
def State.collMix (s t : State) (r : CollReq) (srcs : List (Option (List Byte))) : State :=
  let d : CollDesc := r.desc
  (collElems d srcs d.rank).zipIdx.foldl (fun (t : State) p => match p.1 with
    | none => t
    | some bs =>
      let (n, t1) := t.choose 2
      match s.enginePas r.asid .store 2 (d.dst + p.2 * d.esize) d.esize with
      | .ok pas => if n = 1 then t1.collWrite [(pas, bs)] else t1
      | .error _ => t1) t

/-- A collective that fails after its engine may have written: every DST a mix, and an answer to every member (R375). -/
def State.collFail (s : State) (rs : List CollReq) (ranks status detail : Nat) : State :=
  let srcs := (List.range ranks).map fun n =>
    (rs.find? fun q => CollDesc.rank q.desc = n).bind fun q =>
      (s.engineRead q.asid (CollDesc.src q.desc) (CollDesc.srcLen q.desc)).toOption
  (rs.foldl (fun t r => s.collMix t r srcs) s).collAnswers rs status detail

/-- A collective whose members have all arrived carried out (R373-R375). Where bytes of a DST are refused, they alone stay, and the
status is the cause of the refusal with the rank (R332, R474, log entry 78). -/
def State.collPerform (s : State) (rs : List CollReq) : State :=
  if collOverlap rs then s.collAnswers rs 0x29 1
  else
    let srcs := firstError 0 (rs.map fun r => s.engineRead r.asid (CollDesc.src r.desc) (CollDesc.srcLen r.desc))
    let dsts := firstError 0 (rs.map fun r =>
      s.enginePas r.asid .store (CollDesc.dstLen r.desc / 65536 + 2) (CollDesc.dst r.desc) (CollDesc.dstLen r.desc))
    match srcs, dsts with
    | .error e, _ => s.collFail rs rs.length e.1.toNat e.2
    | _, .error e => s.collFail rs rs.length e.1.toNat e.2
    | .ok bs, .ok pas =>
      let outs := pas.zipIdx.map fun p => (p.1, collOut ((rs.headD ⟨⟨0, 0⟩, 0, 0, 0, [], [], 0⟩).desc) bs p.2)
      let s1 := s.collWrite outs
      match s.collRefused outs with
      | some e => s1.collAnswers rs e.1.toNat e.2
      | none => s1.collAnswers rs 0 0

/-- COLLECTIVE_COMPLETE: a collective of this TAG all of whose members have arrived. -/
def execCollectiveComplete (tag : BitVec 16) (s : State) : Answer :=
  match (s.colls.filter fun r => CollDesc.tag r.desc = tag.toNat).findSome? s.collMembers with
  | some rs => .next (s.collPerform rs)
  | none => .next s

/-- COLLECTIVE_TIMEOUT: a member has not arrived within 2^28 cycles of the first request (R375). -/
def execCollectiveTimeout (tag : BitVec 16) (s : State) : Answer :=
  match s.colls.find? fun r => CollDesc.tag r.desc = tag.toNat && decide (r.since + 2 ^ 28 ≤ s.cycle) with
  | some r => .next (s.collFail (s.colls.filter (collSame r)) (CollDesc.ranks r.desc) 0x29 3)
  | none => .next s

/-! ### EGRESS (R321) -/

def egWidth (p3 : FrameBits) : Nat := fld p3 226 14
def egHeight (p3 : FrameBits) : Nat := fld p3 212 14
def egStride (p3 : FrameBits) : Nat := fld p3 160 52

/-- The bytes of a frame's tokens (R273, R321). -/
def gframeBytes (g : GenAt) (ts : List Token) : GM (List Byte) := do
  let q ← ggen g
  let rows ← ts.mapM fun (t : Token) => (t.lanesBelow 16).mapM fun (i : Nat) => do
    let (v, ev) := q.fmt.store (t.lane i) (gOvf q.f)
    gevent g ev
    pure (BitVec.ofNat 8 v)
  pure rows.flatten

/-- EGRESS: a header, 3 × HEIGHT / 2 rows, then S1; a stop between frames is of another shape. `part.acc` counts the rows closed,
`frameNo` the frames since the section started (R321). -/
def gegress (g : GenAt) : GM Unit := ginput g fun t => do
  let q ← ggen g
  let w := egWidth q.p3
  let h := egHeight q.p3
  let per := (w + 15) / 16
  let closed := q.part.acc.length
  let here := q.part.toks.length - closed * per
  let rows := 3 * h / 2
  match q.part.first with
  | none =>
    if t.isDone then gpass g t
    else if t.closes then gshape t
    else if t.valid 0 && t.valid 1 && t.valid 2 then
      gtake g
      gpart g fun p => { p with first := some t, toks := [], acc := [] }
    else gshape t
  | some hd =>
    if t.kind = 0 then
      let m := min 16 (w - 16 * here)
      if closed < rows && here < per && t.mask = BitVec.ofNat 16 (2 ^ m - 1) then
        gtake g
        gpart g fun p => { p with toks := p.toks ++ [t] }
      else gshape t
    else if t.isStop && t.level = 0 && here = per && closed < rows then
      gtake g
      gpart g fun p => { p with acc := p.acc ++ [0] }
    else if t.isStop && t.level = 1 && ((closed = rows && here = 0) || (closed + 1 = rows && here = per)) then
      gopen g
      let bs ← gframeBytes g q.part.toks
      let req := uint32 (hd.lane 0) + 2 ^ 32 * uint32 (hd.lane 1)
      gput g (gBase q.f + q.frameNo * egStride q.p3) bs (.frame req (uint32 (hd.lane 2)) w h)
      gpart g fun p => { p with first := none, toks := [], acc := [] }
      gupd g fun q => { q with frameNo := q.frameNo + 1 }
      gtake g
    else gshape t

def execEgress (g : GenAt) (s : State) : Answer := s.genTurn g 0x0D (gegress g)

end Sys2Proof.Machine
end

