-- ==== Sys2Proof/Machine/Routers.lean ====
section
/-! DEFINITION. The firings of router elements (10 R194-R206). Inputs P, Q and K are ports 3, 4 and 5; outputs X and Y are
1 and 2. -/

namespace Sys2Proof.Machine

/-- The inputs of a router opcode (R199). -/
def routerIns (op : Nat) : List Nat :=
  match op with
  | 2 => [3, 5] | 3 => [3, 4, 5] | 4 => [3, 4] | 5 => [3, 4, 5] | 6 => [3, 5] | 8 => [3, 4] | _ => [3]
/-- The outputs of a router opcode, its error output first (R199). -/
def routerOuts (op : Nat) : List Nat :=
  match op with
  | 2 => [2, 1] | 7 => [1, 2] | _ => [1]
/-- The outputs in use: Y of ROUTE with DUP (R199). -/
def routerOutsOf (op : Nat) (f : FrameBits) : List Nat :=
  if op = 1 && (modOf f).getLsbD 0 then [1, 2] else routerOuts op

/-- The decision on a control token (R197). -/
def ctl (f : FrameBits) (t : Token) : Bool :=
  if !t.valid 0 then false
  else if (modOf f).getLsbD 13 then (t.lane 0).getLsbD (opx (modOf f) 8 5)
  else (t.lane 0).setWidth 32 ≠ 0

/-- The router element replaced. -/
def SitePlane.setRouter (x : SitePlane) (q : Router) : SitePlane := { x with router := q }
/-- The router element after reset (R98). -/
def SitePlane.resetRouter (x : SitePlane) : SitePlane := x.setRouter .reset

/-- A mismatch of R206: the ports that the failed rule read. -/
def routerFail (op : Nat) (f : FrameBits) (env : Env) (x : SitePlane) (ports : List Nat) : Option SitePlane :=
  let outs := routerOutsOf op f
  if env.free.contains (outs.headD 1) then some (x.fail env true ports outs (rlvlOf f) 1 (shapeDetail x ports)) else none

/-- Tokens consumed and one token emitted on several outputs, once all of them are free (R195). -/
def routerMove (f : FrameBits) (env : Env) (x : SitePlane) (ports outs : List Nat) (t : Token) : Option SitePlane :=
  if outs.all env.free.contains then
    let y := outs.foldl (fun y o => y.put true o (rlvlOf f) t) (x.eat ports)
    let z := if t.closes then (y.endSkip true).windowMark env true t else y
    some (if closesAt t (rlvlOf f) then z.resetRouter else z)
  else none

/-- ROUTE (R200), with the skip request of R165. -/
def fireRoute (f : FrameBits) (env : Env) (x : SitePlane) : Option SitePlane :=
  (x.head 3).bind fun p =>
    if x.rout.skip && p.kind = 0 then some (x.eat [3]) else routerMove f env x [3] (routerOutsOf 1 f) p

/-- STEER (R200). -/
def fireSteer (f : FrameBits) (env : Env) (x : SitePlane) : Option SitePlane :=
  match x.head 3, x.head 5 with
  | some p, some k =>
    if p.kind = 0 && k.kind = 0 then routerMove f env x [3, 5] [if ctl f k then 1 else 2] p
    else if p.kind = k.kind then routerMove f env x [3, 5] [1, 2] p
    else routerFail 2 f env x [3, 5]
  | _, _ => none

/-- MERGE (R200). -/
def fireMerge (f : FrameBits) (env : Env) (x : SitePlane) : Option SitePlane :=
  (x.head 5).bind fun k =>
    if k.kind = 0 then
      let side := if ctl f k then 3 else 4
      (x.head side).bind fun t =>
        if t.kind = 0 then routerMove f env x [side, 5] [1] t else routerFail 3 f env x [side, 5]
    else match x.head 3, x.head 4 with
      | some p, some q =>
        if p.kind = k.kind && q.kind = k.kind then routerMove f env x [3, 4, 5] [1] k else routerFail 3 f env x [3, 4, 5]
      | _, _ => none

/-- JOIN (R201). -/
def fireJoin (f : FrameBits) (env : Env) (x : SitePlane) : Option SitePlane :=
  let one := fun (side : Nat) (t : Token) => routerMove f env x [side] [1] t
  match x.head 3, x.head 4 with
  | none, none => none
  | some p, none => if p.kind = 0 then one 3 p else none
  | none, some q => if q.kind = 0 then one 4 q else none
  | some p, some q =>
    if p.kind = 0 && q.kind = 0 then
      (if x.router.turn then one 4 q else one 3 p).map fun y => y.setRouter { y.router with turn := !x.router.turn }
    else if p.kind = 0 then one 3 p
    else if q.kind = 0 then one 4 q
    else if p.kind = q.kind then routerMove f env x [3, 4] [1] p
    else routerFail 4 f env x [3, 4]

/-- CARRY: the first rule of R205 that applies. -/
def fireCarry (f : FrameBits) (env : Env) (x : SitePlane) : Option SitePlane :=
  let r := x.router
  let limit := opx (modOf f) 0 8
  let kValue := (x.head 5).any fun k => k.kind = 0
  let kClose := (x.head 5).any (·.closes)
  let enter1 : Option SitePlane :=
    (x.head 3).bind fun p =>
      if r.closing then none
      else if p.kind = 0 then
        if r.occ < limit then
          (if env.free.contains 1 then some ((x.eat [3]).put true 1 (rlvlOf f) p) else none).map fun y =>
            y.setRouter { r with occ := r.occ + 1 }
        else none
      else if r.occ = 0 then
        (if env.free.contains 1 then some (((x.eat [3]).put true 1 (rlvlOf f) p).windowMark env true p) else none).map
          fun y => y.setRouter { r with closing := true }
      else none
  if kValue then
    if (x.head 5).any (ctl f) then
      (x.head 4).bind fun q =>
        if q.kind = 0 then
          if env.free.contains 1 then some ((x.eat [4, 5]).put true 1 (rlvlOf f) q) else none
        else routerFail 5 f env x [4, 5]
    else some ((x.eat [5]).setRouter { r with occ := r.occ - 1 })
  else if kClose then
    if !r.closing then routerFail 5 f env x [5]
    else match x.head 4, x.head 5 with
      | some q, some k =>
        if q.kind = k.kind then
          let y := x.eat [4, 5]
          some (if k.isDone then y.resetRouter else y.setRouter { r with closing := false })
        else routerFail 5 f env x [4, 5]
      | _, _ => none
  else enter1

/-- INVAR (R203). A closing that takes two tokens of P takes them in two firings. -/
def fireInvar (f : FrameBits) (env : Env) (x : SitePlane) : Option SitePlane :=
  let lvl := opx (modOf f) 0 3
  (x.head 5).bind fun k =>
    if k.kind = 0 then
      (x.head 3).bind fun p => if p.kind = 0 then routerMove f env x [5] [1] p else routerFail 6 f env x [3, 5]
    else if k.isStop && k.level < lvl then routerMove f env x [5] [1] k
    else (x.head 3).bind fun p =>
      if p.kind = 0 && x.router.half = 0 then
        if k.isStop && k.level = lvl then routerMove f env x [3, 5] [1] k
        else some ((x.eat [3]).setRouter { x.router with half := 1 })
      else if k.isStop && k.level = lvl then
        (routerMove f env x [5] [1] k).map fun y => y.setRouter { y.router with half := 0 }
      else if p.kind = k.kind then
        (routerMove f env x [3, 5] [1] k).map fun y => y.setRouter { y.router with half := 0 }
      else routerFail 6 f env x [3, 5]

/-- SPLIT (R202). -/
def fireSplit (f : FrameBits) (env : Env) (x : SitePlane) : Option SitePlane :=
  (x.head 3).bind fun p =>
    if p.kind = 0 then
      (routerMove f env x [3] [if x.router.turn then 2 else 1] p).map fun y =>
        y.setRouter { y.router with turn := !x.router.turn }
    else (routerMove f env x [3] [1, 2] p).map fun y => y.setRouter { y.router with turn := false }

/-- ORDER (R202). -/
def fireOrder (f : FrameBits) (env : Env) (x : SitePlane) : Option SitePlane :=
  let side := if x.router.turn then 4 else 3
  let other := if x.router.turn then 3 else 4
  (x.head side).bind fun t =>
    if t.kind = 0 then
      (routerMove f env x [side] [1] t).map fun y => y.setRouter { y.router with turn := !x.router.turn }
    else (x.head other).bind fun u =>
      if u.kind = t.kind then
        (routerMove f env x [3, 4] [1] t).map fun y => y.setRouter { y.router with turn := false }
      else routerFail 8 f env x [3, 4]

/-- DISCARD (R204, R206): it never drains. -/
def fireDiscard (f : FrameBits) (env : Env) (x : SitePlane) : Option SitePlane :=
  let xen := (modOf f).getLsbD 0
  (x.head 3).bind fun p =>
    if xen && (p.err || p.isDone) then
      (if env.free.contains 1 then some ((x.eat [3]).put true 1 (rlvlOf f) p) else none).map fun y =>
        y.windowMark env true p
    else
      let y := x.eat [3]
      let z := if p.err then y.setHalf true { y.rout with face := { y.rout.face with err := true } } else y
      some (z.windowMark env true p)

/-- One firing of a router element, by its opcode: the drain, a forwarded error token, else its rules (R195, R206). -/
def routerStep (op : Nat) (f : FrameBits) (env : Env) (x : SitePlane) : Option SitePlane :=
  let ins := routerIns op
  let outs := routerOutsOf op f
  if x.rout.drain.isSome then
    x.drainStep env true ins (if op = 5 then [3] else ins) (rlvlOf f) SitePlane.resetRouter
  else match if op = 9 then none else x.errPort ins with
  | some (p, t) => if env.free.contains (outs.headD 1) then some (x.forward true p outs (rlvlOf f) t) else none
  | none => match op with
    | 1 => fireRoute f env x
    | 2 => fireSteer f env x
    | 3 => fireMerge f env x
    | 4 => fireJoin f env x
    | 5 => fireCarry f env x
    | 6 => fireInvar f env x
    | 7 => fireSplit f env x
    | 8 => fireOrder f env x
    | 9 => fireDiscard f env x
    | _ => none

end Sys2Proof.Machine
end

