-- ==== Sys2Proof/Machine/Route.lean ====
section
/-! DEFINITION. Where tokens go: tracks, ports, streams between pages, generators, clones; the moves of a cycle
(05 R92-R94; 07 R139, R140, R483; 11 R228, R233). -/

namespace Sys2Proof.Machine

/-- Whether the sites of a graph act: it is in RUN, and nothing freezes it (R114, R442). Sites go on after a fault until
the graph is quiet (R407). -/
def Graph.sitesRun (x : Graph) : Bool := x.live && x.st = .run && !x.frozen && (x.ctx = .running || x.ctx = .draining)

/-- The graph for which an element's plane is ACTIVE and acts. -/
def State.actingFor (s : State) (e : Elt) : Option GraphIx :=
  let p := s.planeOf e
  match p.st, p.owner with
  | .active, some g => if (s.graph g).sitesRun then some g else none
  | _, _ => none

/-- The port site of a page on its ACTIVE plane. -/
def State.cuffOf (s : State) (g : GraphIx) (page : Nat) : Option Elt :=
  ((s.graph g).place page).bind fun p => (s.activePlane g p.1 p.2).map fun pl => ⟨p.1, p.2, 15, pl⟩

/-- The scale stream of a storing generator with an MX format: page and port (R275). -/
def Gen.scaleFrom (q : Gen) : Option (Nat × Nat) :=
  if opcOf q.f = 2 && q.fmt.isMx then some (fld q.p3 234 6, fld q.p3 232 2) else .none

/-- The clone of a page that is bound (R233). -/
def Graph.cloneOf (x : Graph) (page : Nat) : Option Clone := x.clone.find? fun c => c.page = page && c.bound

/-- Whether an element is in the region of a clone. -/
def Clone.holds (c : Clone) (e : Elt) : Bool := c.core = e.core && c.region = e.region

/-- The stream-table entry that feeds in stream i of a page in a plane, and the port site it comes from (R454, R483). -/
def State.streamInto (s : State) (g : GraphIx) (e : Elt) (page i : Nat) : Option (StreamInfo × Elt) :=
  (s.graph g).streams.findSome? fun r =>
    if r.ipage = page && r.iport = i then match s.peer g r.opage e with
      | some a => if a.plane.val = r.plane then some (r, a) else none
      | none => none
    else none

/-- Where out stream n of a page leads: into the same image, so no plane sees another's tokens (R85, R228, R233, R236,
R454). -/
def State.streamTo (s : State) (g : GraphIx) (e : Elt) (page n : Nat) : Option Target :=
  let x := s.graph g
  let buffer : Target := .cuff e (8 + n)
  let here := fun (q : Gen) => (s.genPeer g q page).map (·.plane) = some e.plane
  let direct : Option Target := match x.streams.find? fun r => r.plane = e.plane.val && r.opage = page && r.oport = n with
    | some r => (s.peer g r.ipage e).map fun t =>
        .cuff t (if (x.cloneOf r.ipage).isSome && (s.planeOf t).st = .active then 12 + r.iport else r.iport)
    | none => match x.gens.findSome? fun q =>
          if gIen q.2.f && gIpage q.2.f = page && gIport q.2.f = n && here q.2 then some (Target.gen g q.1)
          else if q.2.scaleFrom = some (page, n) && here q.2 then some (Target.scale g q.1) else none with
      | some t => some t
      | none => if x.nblk ≠ 0 then some buffer else none
  match x.cloneOf page with
  | some c => if c.closed || c.holds e then some buffer else direct
  | none => direct

/-- Where a token that leaves by destination d of a site arrives (R139, R140). -/
def State.target (s : State) (e : Elt) (d : Nat) : Option Target :=
  if d < 8 then (neighbour e d).map fun t => .link t.1 t.2
  else if d < 14 then some (.port e (d - 8))
  else match s.ownerOf e with
    | some g => s.streamTo g e (s.planeOf e).page (d - 14)
    | none => none

/-- The slot return that a target drove at the end of the last cycle (R93). -/
def State.retOf (s : State) (t : Target) : Bool :=
  match t with
  | .link e k => (stageAt (s.site e).links k).ret
  | .port e p => (stageAt (s.site e).ports p).ret
  | .cuff e i => (stageAt (s.site e).cuffs i).ret
  | .gen g n => ((s.graph g).genOf n).inq.ret
  | .scale g n => ((s.graph g).genOf n).scq.ret

/-- A token arrives at a target. -/
def State.arrive (s : State) (t : Target) (tok : Token) : State :=
  match t with
  | .link e k => let x := s.site e; s.setSite e { x with links := x.links.set .empty k ((stageAt x.links k).push tok) }
  | .port e p => let x := s.site e; s.setSite e { x with ports := x.ports.set .empty p ((stageAt x.ports p).push tok) }
  | .cuff e i => let x := s.site e; s.setSite e { x with cuffs := x.cuffs.set .empty i ((stageAt x.cuffs i).push tok) }
  | .gen g n => s.updGraph g fun x => x.setGen n { x.genOf n with inq := (x.genOf n).inq.push tok }
  | .scale g n => s.updGraph g fun x => x.setGen n { x.genOf n with scq := (x.genOf n).scq.push tok }

/-- The targets to which a source's token leaves where no other plane uses its tracks: every selected destination's slot
return is high (R93, R140). -/
def State.mayLeave (s : State) (e : Elt) (x : SitePlane) (src : Nat) : Option (List Target) :=
  match x.moveDests src with
  | [] => none
  | ds => match ds.mapM (s.target e) with
    | none => none
    | some ts => if ts.all s.retOf then some ts else none

/-- The planes of a region in the order in which their elements are tried and their tokens pass (R232). -/
def Region.planeOrder (r : Region) : List (Fin 4) :=
  ([0, 1, 2, 3] : List Nat).map fun i => Fin.ofNat 4 (if r.inter then r.ctr + i else i)

/-- The outgoing tracks that a source's token takes. -/
def SitePlane.tracks (x : SitePlane) (src : Nat) : List Nat := (x.moveDests src).filter (· < 8)

/-- The outgoing tracks of a site that the planes before one of them use in this cycle: a track carries one token a cycle,
whatever the plane (R92). -/
def State.tracksUsed (s : State) (e : Elt) : List Nat :=
  let before := ((s.region e.core e.region).planeOrder).takeWhile fun p => p ≠ e.plane
  before.foldl (fun used p =>
    let a : Elt := { e with plane := p }
    if (s.actingFor a).isNone then used
    else
      let x := s.site a
      (List.range 15).foldl (fun u i =>
        if (x.sourceTok (i + 1)).isSome && (s.mayLeave a x (i + 1)).isSome && !(x.tracks (i + 1)).any u.contains then
          u ++ x.tracks (i + 1)
        else u) used) []

/-- The targets to which a source's token leaves, if it leaves now. In an interleaved region a plane whose rotation comes first
passes first (R92, R93, R232). -/
def State.leaving (s : State) (e : Elt) (x : SitePlane) (src : Nat) : Option (List Target) :=
  match s.mayLeave e x src with
  | none => none
  | some ts =>
    if (s.region e.core e.region).inter && (x.tracks src).any (s.tracksUsed e).contains then none else some ts

/-- The head of a source leaves it. -/
def SitePlane.depart (x : SitePlane) (src : Nat) : SitePlane :=
  if src ≤ 8 then { x with links := x.links.set .empty (src - 1) (stageAt x.links (src - 1)).pop }
  else if src ≤ 11 then x.setOut (src - 9) { x.out (src - 9) with cur := none }
  else { x with cuffs := x.cuffs.set .empty (src - 12) (stageAt x.cuffs (src - 12)).pop }

/-- The uncorrectable words of a site's tile (R477). -/
def State.badWords (s : State) (e : Elt) : List Nat :=
  s.repair.badTiles.filterMap fun p => if p.1 = { e with plane := p.1.plane } then some p.2 else none

/-- What a firing sees (Env). -/
def State.envOf (s : State) (g : GraphIx) (e : Elt) : Env :=
  let x := s.site e
  let gr := s.graph g
  { loc := s.locOf e, win := gr.win, dreg := gr.dreg, badA := s.badWords e, badB := []
    free := (List.range 3).filter fun o => (x.out o).nxt.isNone && ((x.out o).cur.isNone || (s.leaving e x (9 + o)).isSome) }

/-! ### The moves of a cycle -/

/-- One move: from a source of a site to its targets. -/
structure Move where
  e    : Elt
  src  : Nat
  to_  : List Target
  tok  : Token

/-- The moves of one plane of a site. -/
def State.siteMoves (s : State) (e : Elt) : List Move :=
  match s.actingFor e with
  | none => []
  | some _ =>
    let x := s.site e
    (List.range 15).filterMap fun i => match x.sourceTok (i + 1), s.leaving e x (i + 1) with
      | some t, some ts => some ⟨e, i + 1, ts, t⟩
      | _, _ => none

/-- A clone is bound once an invocation marker has entered the page (R233). -/
def State.markClones (s : State) (g : GraphIx) (m : Move) : State :=
  s.updGraph g fun x =>
    if closesAt m.tok x.inv then { x with clone := x.clone.map fun c =>
      let enters := !c.bound && m.to_.any fun t => match t with
        | .cuff e i => i < 4 && decide (some e = s.cuffOf g c.page)
        | _ => false
      { c with bound := c.bound || enters } }
    else x

/-- One move carried out: it counts as activity of the graph (R440). -/
def State.move (s : State) (m : Move) : State :=
  let s1 := s.setSite m.e ((s.site m.e).depart m.src)
  let s2 := m.to_.foldl (fun t k => t.arrive k m.tok) s1
  match s.ownerOf m.e with
  | some g => (s2.updGraph g fun x => { x with act := x.act + 1 }).markClones g m
  | none => s2

/-- The token in a generator's output leaves for the page it feeds. -/
def State.genMove (s : State) (g : GenAt) : State :=
  let q := s.gen g
  match q.out.cur, s.genTarget g with
  | some t, some (e, i) =>
    let x := s.graph g.graph
    let k := if (x.cloneOf (gOpage q.f)).isSome && (s.planeOf e).st = .active then 12 + i else i
    if x.sitesRun && (stageAt (s.site e).cuffs k).ret then
      let s1 := (s.arrive (.cuff e k) t).updGen g fun q => { q with out := { q.out with cur := .none } }
      (s1.updGraph g.graph fun x => { x with act := x.act + 1 }).markClones g.graph ⟨e, 0, [.cuff e k], t⟩
    else s
  | _, _ => s

/-! ### The SPLIT and the ORDER of a clone (R202, R233, R234) -/

/-- The port site of a clone. -/
def Clone.cuff (c : Clone) : Elt := ⟨c.core, c.region, 15, Fin.ofNat 4 c.plane⟩
/-- A cuff stage's head. -/
def State.cuffHead (s : State) (e : Elt) (i : Nat) : Option Token := (stageAt (s.site e).cuffs i).toks.head?
/-- A cuff stage's head leaves. -/
def State.cuffPop (s : State) (e : Elt) (i : Nat) : State :=
  let x := s.site e
  s.setSite e { x with cuffs := x.cuffs.set .empty i (stageAt x.cuffs i).pop }
/-- The clone of a page changed. -/
def State.updClone (s : State) (g : GraphIx) (page : Nat) (f : Clone → Clone) : State :=
  s.updGraph g fun x => { x with clone := x.clone.map fun c => if c.page = page then f c else c }

/-- The ports of a page that are in use, by direction: in (0) or out (1). -/
def Graph.portsOf (x : Graph) (page dir : Nat) : List Nat :=
  match x.table.find? fun t => t.page = page with
  | some t => (List.range 4).filter fun i => t.ports / 2 ^ (4 * dir + i) % 2 = 1
  | none => []

/-- The element and the router element of a plane of a site as reset leaves them; its faces and tokens stay (R98, R233). -/
def SitePlane.restart (x : SitePlane) : SitePlane :=
  { x with cell := .reset, fibre := .reset, router := .reset, tile := .reset, matrix := .reset
           elem := { Half.reset with face := x.elem.face, firing := x.elem.firing }
           rout := { Half.reset with face := x.rout.face, firing := x.rout.firing } }

/-- Whether a plane of a site holds no token of its page. -/
def SitePlane.vacant (x : SitePlane) : Bool :=
  (x.links.all fun p => p.2.toks.isEmpty) && (x.ports.all fun p => p.2.toks.isEmpty) && x.outs.isEmpty &&
  (List.range 4).all fun i => (stageAt x.cuffs i).toks.isEmpty && (stageAt x.cuffs (8 + i)).toks.isEmpty

/-- A bound clone runs once the page has given out every token up to its marker: then both copies start from reset (R233,
log entry 71). -/
def State.closeClone (s : State) (g : GraphIx) (c : Clone) : State :=
  match s.cuffOf g c.page with
  | none => s
  | some a =>
    let sites := (List.range 16).map fun i => ({ a with site := Fin.ofNat 16 i } : Elt)
    if c.closed || !sites.all fun e => (s.site e).vacant then s
    else (sites.foldl (fun t e => t.setSite e (t.site e).restart) s).updClone g c.page fun c => { c with closed := true }

/-- A router element of the stream switch with an opcode of R144: SPLIT 7, ORDER 8. -/
def switchElement (op : Nat) : FrameBits := BitVec.ofNat 256 (op * 2 ^ 232)

/-- A firing of a clone's element on the input stages given, which come back as the firing leaves them; its outputs X and Y are
free where their token has left. -/
def Env.fireClone (env : Env) (op : Nat) (x : SitePlane) (ports : SMap Stage) : SitePlane :=
  let y := { x with ports := ports }
  let free := (List.range 3).filter fun o => (x.out o).nxt.isNone && (x.out o).cur.isNone
  (routerStep op (switchElement op) { env with free := free } y).getD y

/-- The token of an output of a clone's element leaves for its target, whose slot return is high (R93). -/
def State.cloneOut (s : State) (x : SitePlane) (o : Nat) (t : Target) : State × SitePlane :=
  match (x.out o).cur with
  | some tok => if s.retOf t then (s.arrive t tok, x.setOut o { x.out o with cur := none }) else (s, x)
  | none => (s, x)

/-- The end of a cycle for a clone's element. -/
def SitePlane.cloneSettle (x : SitePlane) : SitePlane :=
  { x with ports := [], outs := x.outs.mapV .empty fun _ o => match o.cur with
      | none => ⟨o.nxt, none⟩
      | some _ => o }

/-- What a clone's element of the stream switch sees besides its inputs. -/
def State.cloneEnv (s : State) (g : GraphIx) (a : Elt) : Env :=
  { loc := s.locOf a, win := (s.graph g).win, dreg := [], free := [], badA := [], badB := [] }

/-- The SPLIT before the two copies (R202, R206, R233): its input is what waits before the page, its outputs are the in streams
of the copies. -/
def State.splitStep (s : State) (g : GraphIx) (c : Clone) : State :=
  match s.cuffOf g c.page, ((s.graph g).portsOf c.page 0).head? with
  | some a, some i =>
    let x := s.site a
    let (s1, y1) := s.cloneOut c.split 1 (.cuff a i)
    let (s2, y2) := s1.cloneOut y1 2 (.cuff c.cuff i)
    let y3 := (s2.cloneEnv g a).fireClone 7 y2 (SMap.set Stage.empty [] 3 (stageAt x.cuffs (12 + i)))
    let z := s2.site a
    (s2.setSite a { z with cuffs := z.cuffs.set .empty (12 + i) (stageAt y3.ports 3) }).updClone g c.page fun c =>
      { c with split := y3.cloneSettle }
  | _, _ => s

/-- The ORDER after the two copies (R202, R206, R233, R234): its inputs are the out streams of the copies, its output goes where
the page's out stream leads. -/
def State.orderStep (s : State) (g : GraphIx) (c : Clone) : State :=
  match s.cuffOf g c.page, ((s.graph g).portsOf c.page 1).head? with
  | some a, some i =>
    let b := c.cuff
    let x := s.graph g
    let plain : State := s.setGraph g { x with clone := x.clone.filter (·.page ≠ c.page) }
    match plain.streamTo g a c.page i with
    | none => s
    | some dst =>
      let (s1, y1) := s.cloneOut c.order 1 dst
      let ins := SMap.set Stage.empty (SMap.set Stage.empty [] 3 (stageAt (s1.site a).cuffs (8 + i))) 4 (stageAt (s1.site b).cuffs (8 + i))
      let y2 := (s1.cloneEnv g a).fireClone 8 y1 ins
      let put := fun (t : State) (e : Elt) (p : Nat) =>
        let z := t.site e
        t.setSite e { z with cuffs := z.cuffs.set .empty (8 + i) (stageAt y2.ports p) }
      (put (put s1 a 3) b 4).updClone g c.page fun c => { c with order := y2.cloneSettle }
  | _, _ => s

/-- Both elements of every clone of a graph that runs; one that is bound waits for its page (R233). -/
def State.cloneSteps (s : State) (g : GraphIx) : State :=
  (s.graph g).clone.foldl (fun t c =>
    if c.closed then (t.splitStep g c).orderStep g c else if c.bound then t.closeClone g c else t) s

/-! ### The end of a cycle (R93, R95) -/

/-- Every stage drives its slot return. -/
def driveAll (m : SMap Stage) : SMap Stage := m.mapV .empty fun _ x => x.drive
/-- An output port whose token has left takes the one written in the cycle. -/
def OutPort.shift (o : OutPort) : OutPort := match o.cur with
  | none => ⟨o.nxt, none⟩
  | some _ => o

/-- A plane of a site at the end of a cycle. -/
def SitePlane.settle (x : SitePlane) : SitePlane :=
  { x with
      links := driveAll x.links, ports := driveAll x.ports, cuffs := driveAll x.cuffs
      outs := x.outs.mapV .empty fun _ o => o.shift
      elem := { x.elem with fired := false }, rout := { x.rout with fired := false } }

/-- A generator at the end of a cycle. -/
def Gen.settle (q : Gen) : Gen :=
  { q with inq := q.inq.drive, scq := q.scq.drive, out := q.out.shift, half := { q.half with fired := false } }

/-- The stall counters of in0-in3: cycles in which the stream switch holds a token for the port while a slot return it needs is
low (R93, R233). -/
def State.countStalls (s : State) (e : Elt) (x : SitePlane) : SitePlane :=
  if (List.range 4).all fun i => (stageAt x.cuffs i).toks.isEmpty then x
  else { x with stalls := (List.range 4).foldl (fun m i =>
      let low := (x.moveDests (12 + i)).any fun d => (s.target e d).any fun t => !s.retOf t
      if !(stageAt x.cuffs i).toks.isEmpty && low then m.upd 0 i (· + 1) else m) x.stalls }

/-- The context counter of an interleaved region moves to the next ACTIVE plane that holds a token (R232). -/
def State.rotate (s : State) (k : Nat) (r : Region) : Region :=
  if !r.inter then r
  else
    let c := Fin.ofNat 256 (k / 16)
    let rg := Fin.ofNat 16 k
    let busy := fun (p : Nat) => (r.plane p).st = .active && (List.range 16).any fun i =>
      let x := s.site ⟨c, rg, Fin.ofNat 16 i, Fin.ofNat 4 p⟩
      (x.links.any fun y => !y.2.toks.isEmpty) || (x.ports.any fun y => !y.2.toks.isEmpty)
    match [1, 2, 3, 4].find? fun j => busy ((r.ctr + j) % 4) with
    | some j => { r with ctr := (r.ctr + j) % 4 }
    | none => r

/-- The fabric's part of a cycle: tokens move, then stages, ports and counters settle. -/
def State.fabricCycle (s : State) : State :=
  let moves := s.sites.flatMap fun p => s.siteMoves (eltOf p.1)
  let gens : List GenAt := s.graphs.flatMap fun p => p.2.gens.map fun q => ⟨Fin.ofNat 4096 p.1, Fin.ofNat 256 q.1⟩
  let s0 : State := { s with sites := s.sites.mapV .empty fun k x => s.countStalls (eltOf k) x }
  let s1 := moves.foldl State.move s0
  let s2 := gens.foldl State.genMove s1
  let s3 := s.graphs.foldl (fun t p => t.cloneSteps (Fin.ofNat 4096 p.1)) s2
  let s4 : State := { s3 with
    sites := s3.sites.mapV .empty fun _ x => x.settle
    graphs := s3.graphs.mapV .free fun _ x => { x with gens := x.gens.mapV .none fun _ q => q.settle } }
  { s4 with regions := s4.regions.mapV .reset fun k r => s4.rotate k r }

end Sys2Proof.Machine
end

