-- ==== Sys2Proof/Machine/Fire.lean ====
section
/-! DEFINITION. The firings of the elements of a site, as steps of the device; skip requests and stage tokens
(05 R94-R102; 08 R165; 11 R232; 12 R249; 23 R406). An element that does not fire leaves the module as it is. -/

namespace Sys2Proof.Machine

/-! ### Who may fire -/

/-- Whether another plane of the site has fired the same element in this cycle (R86, R232). -/
def State.siteTaken (s : State) (e : Elt) (r : Bool) : Bool :=
  [0, 1, 2, 3].any fun (p : Fin 4) => ((s.site { e with plane := p }).half r).fired

/-- The graph for which an element may fire now: its plane acts, and the site has not fired yet (R94, R232). -/
def State.mayFire (s : State) (e : Elt) (r : Bool) : Option GraphIx :=
  if s.siteTaken e r then none else s.actingFor e

/-! ### Skip requests upstream (R165) -/

/-- Where a skip request goes that leaves a port against the stream. -/
inductive Upstream where
  | half (e : Elt) (r : Bool)
  | gen (n : Nat)
  | lost

/-- The neighbour whose token arrives on an incoming track, and the outgoing destination there (R82, R139). -/
def feeder (e : Elt) (track : Nat) : Option (Elt × Nat) :=
  (neighbour e track).map fun p => (p.1, (track + 4) % 8)

/-- The source that feeds a port, against the routes; a source copied to several destinations drops the request. -/
def State.upstream (s : State) (g : GraphIx) : Nat → Elt → Nat → Upstream
  | 0, _, _ => .lost
  | fuel + 1, e, d =>
    let x := s.site e
    let src := x.select d
    if (x.dests src).length ≠ 1 then .lost
    else if src = 0 then .lost
    else if src ≤ 8 then match feeder e (src - 1) with
      | some (e1, d1) => s.upstream g fuel e1 d1
      | none => .lost
    else if src = 9 then .half e false
    else if src ≤ 11 then .half e true
    else
      let gr := s.graph g
      let page := (s.planeOf e).page
      if (gr.cloneOf page).isSome then .lost
      else match s.streamInto g e page (src - 12) with
      | some (r, a) => if (gr.cloneOf r.opage).isSome then .lost else s.upstream g fuel a (14 + r.oport)
      | none => match gr.gens.find? fun q => gOen q.2.f && gOpage q.2.f = page && gOport q.2.f = src - 12 &&
            decide ((s.genPeer g q.2 page).map (·.plane) = some e.plane) with
        | some q => .gen q.1
        | none => .lost

/-- The planes that a generator has not delivered of its present group are not fetched or discarded, up to the stop; a request that
comes after the last plane was fetched is dropped (R165, R277, R278). -/
def Gen.skipGroup (q : Gen) : Gen :=
  let mine := fun (i : Item) => i.owed.isSome || (i.tok.kind = 0 && !i.tok.err)
  let group := q.line.takeWhile mine
  match q.fmt, group.any (·.owed.isSome) with
  | .sd d, true => { q with line := (if d < group.length then group.take 1 else []) ++ q.line.dropWhile mine }
  | _, _ => q

/-- A skip request of a parity sent upstream from a port. A generator that delivers SD honours a matching one at once;
an element keeps it until SKIP_REQUEST. -/
def State.askUp (s : State) (g : GraphIx) (e : Elt) (par : Bool) (port : Nat) : State :=
  match s.upstream g 4096 e (8 + port) with
  | .half u r =>
    let x := s.site u
    s.setSite u (x.setHalf r { x.half r with asked := (x.half r).asked ++ [par] })
  | .gen n => s.updGraph g fun x =>
      let q := x.genOf n
      if q.half.parity = par then x.setGen n q.skipGroup else x
  | .lost => s

/-- A request that a firing has left to send goes upstream from the ports it reads digits from. -/
def State.sendAsked (s : State) (g : GraphIx) (e : Elt) (ports : List Nat) : State :=
  let x := s.site e
  match x.elem.send with
  | none => s
  | some par =>
    let s1 := s.setSite e { x with elem := { x.elem with send := none } }
    ports.foldl (fun t p => t.askUp g e par p) s1

/-! ### Firing -/

/-- A site after a firing of one of its elements, put into the module; the firing counts as activity of the graph, and
what replay must know of it enters the log: choices, or a token (R406, R440). -/
def State.fired (s : State) (g : GraphIx) (e : Elt) (r : Bool) (y : SitePlane) (l : List Logged) : State :=
  (s.setSite e (y.counted r)).updGraph g fun x => { x.log x.lowWin l with act := x.act + 1 }

/-- The log's entry of a token that a tile or matrix node at e delivers into the fabric (R406). -/
def State.tokenLog (s : State) (e : Elt) (x y : SitePlane) : List Logged :=
  match if (x.out 0).nxt.isNone then (y.out 0).nxt else none with
  | some t => [.token (s.locOf e) t]
  | none => []

/-- A firing of the compute cell at e, if its opcode is op. -/
def State.fireCellAt (s : State) (op : Nat) (e : Elt) : Answer :=
  match s.mayFire e false, (s.site e).comp with
  | some g, some f =>
    if opcOf f ≠ op then .next s
    else match cellStep op f (s.envOf g e) (s.site e) with
      | some y => .next ((s.fired g e false y []).sendAsked g e (cellPorts f op))
      | none => .next s
  | _, _ => .next s

/-- A firing of the fibre cell at e, if its opcode is op. -/
def State.fireFibreAt (s : State) (op : Nat) (e : Elt) : Answer :=
  match s.mayFire e false, (s.site e).comp with
  | some g, some f =>
    if opcOf f ≠ op then .next s
    else match fibreStep op f (s.envOf g e) (s.site e) with
      | some y => .next (s.fired g e false y [])
      | none => .next s
  | _, _ => .next s

/-- The choices that a router firing logs: which input won a tie of JOIN, and which of P (false) and Q (true) a token of CARRY came
from (R406). -/
def routerBits (op : Nat) (x y : SitePlane) : List Logged :=
  let both := (x.head 3).any (·.kind = 0) && (x.head 4).any (·.kind = 0)
  if x.rout.drain.isSome || y.rout.drain.isSome then []
  else if op = 4 && both then [.choice x.router.turn]
  else if op = 5 && (x.out 1).nxt.isNone && (y.out 1).nxt.isSome then [.choice (decide (y.router = x.router))] else []

/-- A firing of the router element at e, if its opcode is op. -/
def State.fireRouterAt (s : State) (op : Nat) (e : Elt) : Answer :=
  match s.mayFire e true, (s.site e).switch with
  | some g, some f =>
    if opcOf f ≠ op then .next s
    else match routerStep op f (s.envOf g e) (s.site e) with
      | some y => .next (s.fired g e true y (routerBits op (s.site e) y))
      | none => .next s
  | _, _ => .next s

/-- The bytes of the tile at a site. -/
def State.tileBytes (s : State) (e : Elt) : SMap Byte := s.tiles.get [] (siteKey e.core e.region e.site)

/-- A firing of the tile element at e, if its opcode is op. -/
def State.fireTileAt (s : State) (op : Nat) (e : Elt) : Answer :=
  match s.mayFire e false, (s.site e).tileFr with
  | some g, some f =>
    if opcOf f ≠ op then .next s
    else match tileStep op f (s.envOf g e) e.site.val (s.site e) (s.tileBytes e) with
      | some t =>
        let u := s.putTile g e f t
        .next (u.fired g e false (u.site e) (s.tokenLog e (s.site e) t.x))
      | none => .next s
  | _, _ => .next s

/-- What a matrix node does beside its steps, if its opcode is op: `act` is one such action. -/
def State.fireMatrixAt (s : State) (op : Nat) (e : Elt)
    (act : FrameBits → Env → Graph → SitePlane → Option SitePlane) : Answer :=
  match s.mayFire e false, (s.site e).comp with
  | some g, some f =>
    if opcOf f ≠ op then .next s
    else match act f (s.envOf g e) (s.graph g) (s.site e) with
      | some y => .next (s.fired g e false y (s.tokenLog e (s.site e) y))
      | none => .next s
  | _, _ => .next s

/-- Whether a matrix node takes no new group: a cut is draining, or its page's section does not run (R121, R366, R438). -/
def State.holdsGroup (s : State) (x : Graph) (e : Elt) : Bool := x.ctx = .draining || !x.running.contains (s.planeOf e).page

/-- A step of the matrix node at e with the tiles at sites 2 and 13 (R358); MMA and SMMA step while their page's section runs (R366). -/
def State.matrixStepAt (s : State) (e : Elt) : Answer :=
  let ea : Elt := { e with site := 2 }
  let eb : Elt := { e with site := 13 }
  match s.mayFire e false, (s.site e).comp, (s.site ea).tileFr, (s.site eb).tileFr with
  | some g, some f, some fa, some fb =>
    let op := opcOf f
    if op = 0x44 ∨ ((op = 0x40 ∨ op = 0x41) ∧ (s.graph g).running.contains (s.planeOf e).page) then
      match stepNode op f { s.envOf g e with badA := s.badWords ea, badB := s.badWords eb } (s.site e) fa fb (s.site ea) (s.site eb) (s.tileBytes ea) (s.tileBytes eb) with
      | some (y, ya, yb) =>
        .next (((s.setSite ea ya).setSite eb yb).fired g e false y (s.tokenLog e (s.site e) y))
      | none => .next s
    else .next s
  | _, _, _, _ => .next s

/-- The count of an armed matrix node has run out (R367). -/
def State.tilesExpireAt (s : State) (e : Elt) : Answer :=
  match s.mayFire e false, (s.site e).comp with
  | some g, some f => match expireNode f (s.envOf g e) (s.site e) with
    | some y => .next (s.fired g e false y (s.tokenLog e (s.site e) y))
    | none => .next s
  | _, _ => .next s

/-! ### Skip requests and stage tokens as steps -/

/-- The ports on which the element that a skip request has reached reads signed digits: none drops it (R165). -/
def SitePlane.skipPorts (x : SitePlane) (r : Bool) : List Nat :=
  if r then match x.switch with
    | some f => if opcOf f = 1 then [3] else []
    | none => []
  else match x.comp with
    | some f => if opcOf f = 0x38 || opcOf f = 0x39 || opcOf f = 0x3B then cellPorts f (opcOf f) else []
    | none => []

/-- One request at an element: honoured where its parity is that of the group the element emits (R165, R166, R406). -/
def State.skipAt (s : State) (g : GraphIx) (e : Elt) (r : Bool) : State :=
  let x := s.site e
  let h := x.half r
  match h.asked with
  | [] => s
  | par :: rest =>
    let ports := x.skipPorts r
    if ports.isEmpty then s.setSite e (x.setHalf r { h with asked := rest })
    else if h.parity ≠ par then
      (s.setSite e (x.setHalf r { h with asked := rest })).updGraph g fun y => y.log y.lowWin [.choice false]
    else
      let s1 := s.setSite e (x.setHalf r { h with asked := rest, skip := true })
      let s2 := s1.updGraph g fun y => { y.log y.lowWin [.choice true] with act := y.act + 1 }
      ports.foldl (fun t p => t.askUp g e par p) s2

/-- SKIP_REQUEST: the requests that have reached the element and the router element of a site (R165). -/
def State.skipRequest (s : State) (e : Elt) : State :=
  match s.actingFor e with
  | some g => (s.skipAt g e false).skipAt g e true
  | none => s

/-- STAGE_TOKEN: the stage tokens of a site that are due reach its element; no opcode of the spec names a stage input, so
nothing is held of them (log entry 44). They enter the replay log and count as activity of the graph (R249, R406). -/
def State.stageDue (s : State) (e : Elt) : State :=
  match s.actingFor e with
  | none => s
  | some g =>
    let x := s.site e
    let due := x.stage.filter fun p => p.1 ≤ s.cycle
    if due.isEmpty then s
    else (s.setSite e { x with stage := x.stage.filter fun p => s.cycle < p.1 }).updGraph g fun z =>
      { z.log z.lowWin (due.map fun p => .token (s.locOf e) p.2) with act := z.act + due.length }

def execSkipRequest (e : Elt) (s : State) : Answer := .next (s.skipRequest e)
def execStageToken (e : Elt) (s : State) : Answer := .next (s.stageDue e)

/-! ### The instructions -/

def execFadd (e : Elt) (s : State) : Answer := s.fireCellAt 0x01 e
def execFsub (e : Elt) (s : State) : Answer := s.fireCellAt 0x02 e
def execFmul (e : Elt) (s : State) : Answer := s.fireCellAt 0x03 e
def execFfma (e : Elt) (s : State) : Answer := s.fireCellAt 0x04 e
def execFmax (e : Elt) (s : State) : Answer := s.fireCellAt 0x05 e
def execFmin (e : Elt) (s : State) : Answer := s.fireCellAt 0x06 e
def execFrcp (e : Elt) (s : State) : Answer := s.fireCellAt 0x07 e
def execFrsq (e : Elt) (s : State) : Answer := s.fireCellAt 0x08 e
def execFexp2 (e : Elt) (s : State) : Answer := s.fireCellAt 0x09 e
def execFlog2 (e : Elt) (s : State) : Answer := s.fireCellAt 0x0A e
def execFscl (e : Elt) (s : State) : Answer := s.fireCellAt 0x0B e
def execFcmp (e : Elt) (s : State) : Answer := s.fireCellAt 0x0C e
def execFsel (e : Elt) (s : State) : Answer := s.fireCellAt 0x0D e
def execFcvt (e : Elt) (s : State) : Answer := s.fireCellAt 0x0E e
def execIadd (e : Elt) (s : State) : Answer := s.fireCellAt 0x10 e
def execIsub (e : Elt) (s : State) : Answer := s.fireCellAt 0x11 e
def execImul (e : Elt) (s : State) : Answer := s.fireCellAt 0x12 e
def execImad (e : Elt) (s : State) : Answer := s.fireCellAt 0x13 e
def execIand (e : Elt) (s : State) : Answer := s.fireCellAt 0x14 e
def execIor (e : Elt) (s : State) : Answer := s.fireCellAt 0x15 e
def execIxor (e : Elt) (s : State) : Answer := s.fireCellAt 0x16 e
def execIshl (e : Elt) (s : State) : Answer := s.fireCellAt 0x17 e
def execIshr (e : Elt) (s : State) : Answer := s.fireCellAt 0x18 e
def execIcmp (e : Elt) (s : State) : Answer := s.fireCellAt 0x19 e
def execImin (e : Elt) (s : State) : Answer := s.fireCellAt 0x1A e
def execImax (e : Elt) (s : State) : Answer := s.fireCellAt 0x1B e
def execLbcast (e : Elt) (s : State) : Answer := s.fireCellAt 0x20 e
def execLperm (e : Elt) (s : State) : Answer := s.fireCellAt 0x21 e
def execLred (e : Elt) (s : State) : Answer := s.fireCellAt 0x22 e
def execLscan (e : Elt) (s : State) : Answer := s.fireCellAt 0x23 e
def execLshift (e : Elt) (s : State) : Answer := s.fireCellAt 0x24 e
def execAccum (e : Elt) (s : State) : Answer := s.fireCellAt 0x28 e
def execRunmax (e : Elt) (s : State) : Answer := s.fireCellAt 0x29 e
def execCount (e : Elt) (s : State) : Answer := s.fireCellAt 0x2A e
def execGen (e : Elt) (s : State) : Answer := s.fireCellAt 0x2B e
def execConst (e : Elt) (s : State) : Answer := s.fireCellAt 0x2C e
def execDelay (e : Elt) (s : State) : Answer := s.fireCellAt 0x2D e
def execRng (e : Elt) (s : State) : Answer := s.fireCellAt 0x30 e
def execCumsum (e : Elt) (s : State) : Answer := s.fireCellAt 0x31 e
def execIcdf (e : Elt) (s : State) : Answer := s.fireCellAt 0x32 e
def execTopk (e : Elt) (s : State) : Answer := s.fireCellAt 0x33 e
def execArgmax (e : Elt) (s : State) : Answer := s.fireCellAt 0x34 e
def execSdadd (e : Elt) (s : State) : Answer := s.fireCellAt 0x38 e
def execSdmul (e : Elt) (s : State) : Answer := s.fireCellAt 0x39 e
def execSdcmp (e : Elt) (s : State) : Answer := s.fireCellAt 0x3A e
def execSdcut (e : Elt) (s : State) : Answer := s.fireCellAt 0x3B e
def execSdtow (e : Elt) (s : State) : Answer := s.fireCellAt 0x3C e

def execFscanc (e : Elt) (s : State) : Answer := s.fireFibreAt 0x50 e
def execFscand (e : Elt) (s : State) : Answer := s.fireFibreAt 0x51 e
def execFscanb (e : Elt) (s : State) : Answer := s.fireFibreAt 0x52 e
def execFscant (e : Elt) (s : State) : Answer := s.fireFibreAt 0x53 e
def execFisect (e : Elt) (s : State) : Answer := s.fireFibreAt 0x54 e
def execFunion (e : Elt) (s : State) : Answer := s.fireFibreAt 0x55 e
def execFrepeat (e : Elt) (s : State) : Answer := s.fireFibreAt 0x56 e
def execFreduce (e : Elt) (s : State) : Answer := s.fireFibreAt 0x57 e
def execFdrop (e : Elt) (s : State) : Answer := s.fireFibreAt 0x58 e

def execRoute (e : Elt) (s : State) : Answer := s.fireRouterAt 0x01 e
def execSteer (e : Elt) (s : State) : Answer := s.fireRouterAt 0x02 e
def execMerge (e : Elt) (s : State) : Answer := s.fireRouterAt 0x03 e
def execJoin (e : Elt) (s : State) : Answer := s.fireRouterAt 0x04 e
def execCarry (e : Elt) (s : State) : Answer := s.fireRouterAt 0x05 e
def execInvar (e : Elt) (s : State) : Answer := s.fireRouterAt 0x06 e
def execSplit (e : Elt) (s : State) : Answer := s.fireRouterAt 0x07 e
def execOrder (e : Elt) (s : State) : Answer := s.fireRouterAt 0x08 e
def execDiscard (e : Elt) (s : State) : Answer := s.fireRouterAt 0x09 e

def execSprd (e : Elt) (s : State) : Answer := s.fireTileAt 0x01 e
def execSpwr (e : Elt) (s : State) : Answer := s.fireTileAt 0x02 e
def execSpbuf (e : Elt) (s : State) : Answer := s.fireTileAt 0x03 e
def execSpfifo (e : Elt) (s : State) : Answer := s.fireTileAt 0x04 e
def execAadd (e : Elt) (s : State) : Answer := s.fireTileAt 0x08 e
def execAfadd (e : Elt) (s : State) : Answer := s.fireTileAt 0x09 e
def execAmax (e : Elt) (s : State) : Answer := s.fireTileAt 0x0A e
def execAxchg (e : Elt) (s : State) : Answer := s.fireTileAt 0x0B e
def execAcas (e : Elt) (s : State) : Answer := s.fireTileAt 0x0C e

def execMma (e : Elt) (s : State) : Answer :=
  s.fireMatrixAt 0x40 e fun f env x y => fireGroup 0x40 f env (s.holdsGroup x e) y
def execSmma (e : Elt) (s : State) : Answer :=
  s.fireMatrixAt 0x41 e fun f env x y => fireGroup 0x41 f env (s.holdsGroup x e) y
def execMxcfg (e : Elt) (s : State) : Answer := s.fireMatrixAt 0x44 e fun f env _ y => fireCommand f env y
def execMxcfgMma (e : Elt) (s : State) : Answer := s.fireMatrixAt 0x44 e fun f env _ y => fireMx 0x40 f env y
def execMxcfgSmma (e : Elt) (s : State) : Answer := s.fireMatrixAt 0x44 e fun f env _ y => fireMx 0x41 f env y
def execAccld (e : Elt) (s : State) : Answer := s.fireMatrixAt 0x44 e fun f env _ y => fireMx 0x42 f env y
def execAccst (e : Elt) (s : State) : Answer := s.fireMatrixAt 0x44 e fun f env _ y => fireMx 0x43 f env y
def execMxcfgSetfmt (e : Elt) (s : State) : Answer := s.fireMatrixAt 0x44 e fun f env _ y => fireMx 0x44 f env y
def execMatrixStep (e : Elt) (s : State) : Answer := s.matrixStepAt e
def execTilesExpire (e : Elt) (s : State) : Answer := s.tilesExpireAt e

end Sys2Proof.Machine
end

