-- ==== Sys2Proof/Machine/Record.lean ====
section
/-! DEFINITION. Handles, status words, the fault record, and what a graph's cause posts to its home core
(11 R219, R220; 23 R412-R415). -/

namespace Sys2Proof.Machine

/-! ### Handles and status words -/

/-- The handle of a graph (R219). -/
def State.handle (s : State) (g : GraphIx) : Word := BitVec.ofNat 64 ((s.graph g).gen % 16 * 4096 + g.val)

/-- Whether a graph was launched from a queue and has ended: its residency has ended too (R219). -/
def Graph.done (x : Graph) : Bool := x.queue.isSome && x.st = .ended

/-- The graph whose slot and generation a value names: reserved bits zero, the slot live (R219). -/
def State.bySlot (s : State) (v : Word) : Option GraphIx :=
  let g : GraphIx := Fin.ofNat 4096 v.toNat
  let x := s.graph g
  if field v 16 48 = 0 && x.live && field v 12 4 = x.gen % 16 then some g else none

/-- The graph a valid handle names: one that is resident (R219). -/
def State.byHandle (s : State) (v : Word) : Option GraphIx := (s.bySlot v).filter fun g => !(s.graph g).done

/-! ### The fault record (R413) -/

/-- A token's 83 bytes, bits [7:0] first: payload, control bits [7:0], MASK (R88, R89). -/
def Token.bytes (t : Token) : List Byte :=
  (List.range 16).flatMap (fun i => leBytes 5 (t.lane i).toNat) ++
    leBytes 1 (t.kind.val + 8 * b2n t.err + 16 * b2n t.fill) ++ leBytes 2 t.mask.toNat

/-- The token that 83 bytes hold. -/
def Token.ofBytes (bs : List Byte) : Token :=
  let c := leNat ((bs.drop 80).take 1)
  ⟨Fin.ofNat 8 c, c / 8 % 2 = 1, c / 16 % 2 = 1, BitVec.ofNat 16 (leNat ((bs.drop 81).take 2)),
    lanesOf fun i => BitVec.ofNat 40 (leNat ((bs.drop (5 * i)).take 5))⟩

/-- The CHAIN field (R413). -/
def chainField : Option (Nat × Nat × Nat) → Nat
  | none => 0
  | some (c, w, q) => c % 64 + 2 ^ 6 * (w % 2 ^ 16) + 2 ^ 22 * (q % 2 ^ 12) + 2 ^ 34

/-- A field that is absent, or its number and the bit that says it applies (R413). -/
def optField (o : Option Nat) (bit : Nat) : Nat := match o with
  | none => 0
  | some n => n + 2 ^ bit

/-- The 256 bytes of a fault record (R413). -/
def FaultInfo.bytes (i : FaultInfo) (handle : Word) : List Byte :=
  leBytes 4 (i.cause.toNat + 2 ^ 8 * b2n i.imp + 2 ^ 9 * (i.origin % 4) + 2 ^ 11 * i.ocause.toNat) ++
  leBytes 4 (i.loc % 2 ^ 24) ++ leBytes 2 (optField i.gen 8) ++ leBytes 2 (optField i.sink 8) ++
  leBytes 4 (i.window % 2 ^ 32) ++ leBytes 8 handle.toNat ++
  (List.range 6).flatMap (fun l => leBytes 4 (i.loop.getD l 0)) ++ leBytes 8 (chainField i.chain) ++
  leBytes 8 (i.addr % 2 ^ 52) ++ leBytes 4 i.firing ++ leBytes 4 (optField i.lane 4) ++
  (List.range 3).flatMap (fun l => leBytes 5 (i.opnd.getD l 0).toNat) ++ [0] ++
  leBytes 2 (i.kinds.getD 0 0 % 8 + 8 * (i.kinds.getD 1 0 % 8) + 64 * (i.kinds.getD 2 0 % 8)) ++
  leBytes 6 i.link ++ leBytes 8 i.tval.toNat ++ leBytes 4 i.strays ++ List.replicate 20 0 ++
  (match i.token with | some t => t.bytes | Option.none => List.replicate 83 0) ++ List.replicate 45 0

/-- A graph's cause posted to the control core of its home core (R414, R415). -/
def State.postGraph (s : State) (g : GraphIx) (i : FaultInfo) : State :=
  s.post (s.graph g).home ⟨i.cause, i.imp, i.tval, i.bytes (s.handle g)⟩

/-- The graph holds on a cause, which its home core receives (R114, R407, R412). -/
def State.holdGraph (s : State) (g : GraphIx) (i : FaultInfo) (wl : Nat) : State :=
  (s.updGraph g fun x => { x with st := .held, held := some ⟨i.cause, i.tval, i.imp, wl, i.link⟩, raised := [], noted := [] }).postGraph
    g i

/-! ### The ACTIVE planes of a graph -/

/-- The regions of a graph by page, its clones' after its pages'. -/
def Graph.spots (x : Graph) : List (Nat × CoreIx × Fin 16) := x.pages ++ x.clone.map fun c => (c.page, c.core, c.region)

/-- The first site of every plane of a graph's regions that it owns and that satisfies p, by page, then plane. -/
def State.planesWith (s : State) (g : GraphIx) (p : Plane → Bool) : List Elt :=
  (s.graph g).spots.flatMap fun r => ([0, 1, 2, 3] : List (Fin 4)).filterMap fun pl =>
    let q := (s.region r.2.1 r.2.2).plane pl.val
    if q.owner = some g && p q then some ⟨r.2.1, r.2.2, 0, pl⟩ else none

/-- The first site of every ACTIVE plane of a graph. -/
def State.activePlanes (s : State) (g : GraphIx) : List Elt := s.planesWith g (·.st = .active)

/-- Every site of the ACTIVE planes of a graph. -/
def State.activeElts (s : State) (g : GraphIx) : List Elt :=
  (s.activePlanes g).flatMap fun e => (List.range 16).map fun i => { e with site := Fin.ofNat 16 i }

/-- The first site of every plane that a graph owns. -/
def State.ownedPlanes (s : State) (g : GraphIx) : List Elt := s.planesWith g fun _ => true

/-- Changes to every site of the planes that a graph owns. -/
def State.mapOwned (s : State) (g : GraphIx) (f : Elt → SitePlane → SitePlane) : State :=
  ((s.ownedPlanes g).flatMap fun e => (List.range 16).map fun i => ({ e with site := Fin.ofNat 16 i } : Elt)).foldl
    (fun t e => t.setSite e (f e (t.site e))) s

/-- A plane changed. -/
def State.updPlane (s : State) (e : Elt) (f : Plane → Plane) : State :=
  let r := s.region e.core e.region
  s.setRegion e.core e.region (r.setPlane e.plane.val (f (r.plane e.plane.val)))

/-- The page-table entry of a page. -/
def Graph.pageInfo (x : Graph) (page : Nat) : Option PageInfo := x.table.find? fun t => t.page = page

/-- Changes to every site of the ACTIVE planes. -/
def State.mapElts (s : State) (g : GraphIx) (f : Elt → SitePlane → SitePlane) : State :=
  (s.activeElts g).foldl (fun t e => t.setSite e (f e (t.site e))) s

end Sys2Proof.Machine
end

