-- ==== Sys2Proof/Machine/Signal.lean ====
section
/-! DEFINITION. The signal plane: the controller tree and its walk, the resolution of an instant in rounds, instant end
(06 R105-R126). -/

namespace Sys2Proof.Machine

/-! ### Records and the tree (R120-R124) -/

/-- OPC of a record. -/
def recOp (r : RecordBits) : Nat := r.toNat / 2 ^ 124
/-- A field of a record. -/
def rfld (r : RecordBits) (lo n : Nat) : Nat := r.toNat / 2 ^ lo % 2 ^ n
/-- SEQ, PIPE, STRM, LOOP. -/
def isOpener (r : RecordBits) : Bool := recOp r ≤ 3
/-- A record of a tree. -/
def recAt (rs : List RecordBits) (i : Nat) : RecordBits := rs.getD i 0

/-- The index of the END that closes the openers open at index i, depth of them. -/
def closeFrom : List RecordBits → Nat → Nat → Nat
  | [], i, _ => i
  | r :: rs, i, d =>
    if recOp r = 11 then (if d ≤ 1 then i else closeFrom rs (i + 1) (d - 1))
    else closeFrom rs (i + 1) (if isOpener r then d + 1 else d)
/-- The END of the opener at i. -/
def closeOf (rs : List RecordBits) (i : Nat) : Nat := closeFrom (rs.drop (i + 1)) (i + 1) 1

/-- A child of an opener: the block of the records lo to hi - 1, or the opener at i (R122, R124). -/
inductive Child where
  | block (lo hi : Nat)
  | sub (i : Nat)
  deriving DecidableEq, Repr

/-- The records from j up to the next opener or END at most: the end of a maximal run of leaves. -/
def runEnd : List RecordBits → Nat → Nat
  | [], j => j
  | r :: rs, j => if isOpener r || recOp r = 11 then j else runEnd rs (j + 1)

/-- The children between j and the END at stop. -/
def childrenGo (rs : List RecordBits) (stop : Nat) : Nat → Nat → List Child
  | 0, _ => []
  | fuel + 1, j =>
    if stop ≤ j then []
    else if isOpener (recAt rs j) then .sub j :: childrenGo rs stop fuel (closeOf rs j + 1)
    else
      let k := runEnd (rs.drop j) j
      .block j k :: childrenGo rs stop fuel (max k (j + 1))
/-- The children of the opener at i, in order. -/
def childrenOf (rs : List RecordBits) (i : Nat) : List Child := childrenGo rs (closeOf rs i) rs.length (i + 1)

/-- The walk: what each record has counted, whether it is current, whether it is done (R446). -/
abbrev Walking := SMap (Nat × Bool × Bool)
/-- A record's place in the walk. -/
def Walking.at (w : Walking) (i : Nat) : Nat × Bool × Bool := SMap.get (0, false, false) w i
/-- A record's place changed. -/
def Walking.put (w : Walking) (i : Nat) (v : Nat × Bool × Bool) : Walking := SMap.set (0, false, false) w i v
/-- The records lo to hi - 1 all changed. -/
def Walking.fill (w : Walking) (lo hi : Nat) (v : Nat × Bool × Bool) : Walking :=
  ((List.range (hi - lo)).map (lo + ·)).foldl (fun u i => u.put i v) w

/-- A child is entered: it is current from this instant on, or from the next (R124). -/
def enter (rs : List RecordBits) : Nat → Walking → Child → Walking
  | 0, w, _ => w
  | fuel + 1, w, c => match c with
    | .block lo hi => w.fill lo hi (0, true, false)
    | .sub i =>
      let w1 := (w.fill (i + 1) (closeOf rs i) (0, false, false)).put i (0, true, false)
      match recOp (recAt rs i), childrenOf rs i with
      | 1, _ => w1
      | 2, cs => cs.foldl (enter rs fuel) w1
      | _, c :: _ => enter rs fuel w1 c
      | _, [] => w1

/-- The leaves of a child block of a PIPE: its own records, or those of the one block that a SEQ or STRM holds (R124). -/
def pipeLeaves (rs : List RecordBits) (c : Child) : List Nat :=
  let range := fun (c : Child) => match c with
    | .block lo hi => (List.range (hi - lo)).map (lo + ·)
    | .sub _ => []
  match c with
  | .block _ _ => range c
  | .sub i => (childrenOf rs i).flatMap range

/-- The blocks that are current, each as the indices of its records (R122, R124). -/
def currentBlocks (rs : List RecordBits) : Nat → Walking → Child → List (List Nat)
  | 0, _, _ => []
  | fuel + 1, w, c => match c with
    | .block lo hi => if (w.at lo).2.1 then [(List.range (hi - lo)).map (lo + ·)] else []
    | .sub i =>
      if !(w.at i).2.1 then []
      else if recOp (recAt rs i) = 1 then
        let t := (w.at i).1
        let n := rfld (recAt rs i) 0 32
        let now := ((childrenOf rs i).zipIdx.filter fun (p : Child × Nat) => p.2 ≤ t && decide (t ≤ p.2 + n - 1)).flatMap
          fun (p : Child × Nat) => pipeLeaves rs p.1
        if now.isEmpty then [] else [now]
      else (childrenOf rs i).flatMap (currentBlocks rs fuel w)

/-- Whether a child is current. -/
def Child.current (c : Child) (w : Walking) : Bool := match c with
  | .block lo _ => (w.at lo).2.1
  | .sub i => (w.at i).2.1

/-- A child after an instant whose signals are pres: whether it has completed, and the walk (R122-R124). -/
def advance (rs : List RecordBits) (pres : BitVec 64) : Nat → Walking → Child → Bool × Walking
  | 0, w, _ => (false, w)
  | fuel + 1, w, c => match c with
    | .block lo hi =>
      let r := recAt rs lo
      if recOp r = 10 && !pres.getLsbD (rfld r 0 6) then (false, w) else (true, w.fill lo hi (0, false, true))
    | .sub i =>
      let r := recAt rs i
      let cs := childrenOf rs i
      let cnt := (w.at i).1
      let ended := fun (u : Walking) (n : Nat) => (true, u.put i (n, false, true))
      match recOp r with
      | 1 => if rfld r 0 32 + cs.length ≤ cnt + 2 then ended w (cnt + 1) else (false, w.put i (cnt + 1, true, false))
      | 2 =>
        let u := cs.foldl (fun u c => if c.current u then (advance rs pres fuel u c).2 else u) w
        if cs.any (·.current u) then (false, u) else ended u cnt
      | op => match cs.zipIdx.find? fun (p : Child × Nat) => p.1.current w with
        | none => (false, w)
        | some (c, k) =>
          let (fin, u) := advance rs pres fuel w c
          if !fin then (false, u)
          else match cs[k + 1]?, cs.head? with
            | some d, _ => (false, enter rs fuel u d)
            | none, first =>
              if op = 0 then ended u cnt
              else
                let n := rfld r 0 32
                if (n ≠ 0 && cnt + 1 = n) || (r.getLsbD 38 && pres.getLsbD (rfld r 32 6)) then ended u (cnt + 1)
                else match first with
                  | some d => (false, (enter rs fuel (u.fill (i + 1) (closeOf rs i) (0, false, false)) d).put i (cnt + 1, true, false))
                  | none => (false, u)

/-! ### Signal faces (R109, R110) -/

/-- The event flag of a code (R109). -/
def Face.flag (x : Face) (evt : Nat) : Bool := match evt with
  | 1 => x.done | 2 => x.err | 3 => x.mark | 4 => x.truth | 5 => x.any | _ => false

/-- The signals that a face emits (R110). -/
def faceEmits (f : FrameBits) (x : Face) : BitVec 64 :=
  ([0, 1] : List Nat).foldl (fun m k =>
    let slot := faceOf f / 2 ^ (10 * k) % 2 ^ 10
    if slot / 512 = 1 && x.flag (slot % 8) then m ||| (1 <<< (slot / 8 % 64)) else m) 0

/-- The signals emitted by the faces of a graph: nodes on ACTIVE planes and its generators (R106, R109). -/
def State.facesEmit (s : State) (g : GraphIx) : BitVec 64 :=
  let one := fun (f : Option FrameBits) (x : Face) => match f with
    | some f => faceEmits f x
    | none => 0
  let sites := (s.activeElts g).foldl (fun m e =>
    let x := s.site e
    m ||| one x.comp x.elem.face ||| one x.tileFr x.elem.face ||| one x.switch x.rout.face) 0
  (s.graph g).gens.foldl (fun m q => m ||| faceEmits q.2.f q.2.half.face) sites

/-! ### Resolution (R105-R113) -/

/-- A current record in a resolution: the guards that must hold before it acts, and the AWAIT before it. -/
structure Item2 where
  i     : Nat
  r     : RecordBits
  guard : List (Nat × Bool)
  await : Option Nat
  deriving DecidableEq, Repr

/-- The records of a block with their guards (R121, R123). -/
def blockItems (rs : List RecordBits) : List Nat → List (Nat × Bool) → Option Nat → List Item2
  | [], _, _ => []
  | i :: r, gs, aw =>
    let x := recAt rs i
    let sig := rfld x 0 6
    let it : Item2 := ⟨i, x, gs, aw⟩
    match recOp x with
    | 6 => it :: blockItems rs r (gs ++ [(sig, true)]) aw
    | 7 => it :: blockItems rs r (gs ++ [(sig, false)]) aw
    | 10 => ⟨i, x, [], some sig⟩ :: blockItems rs r [] (some sig)
    | _ => it :: blockItems rs r [] aw

/-- Statuses as far as they are known, the present ones, and the records that have reacted. -/
structure Rounds where
  known : BitVec 64
  pres  : BitVec 64
  done  : List Nat
  deriving DecidableEq, Repr

/-- Whether a record can react: its AWAIT is known, and absent or else its guards are known (R111, R123). -/
def Item2.ready (t : Item2) (s : Rounds) : Bool :=
  let guards := t.guard.all fun p => s.known.getLsbD p.1
  match t.await with
  | none => guards
  | some a => s.known.getLsbD a && (!s.pres.getLsbD a || guards)

/-- Whether a record that reacts acts (R121, R123). -/
def Item2.acts (t : Item2) (pres : BitVec 64) : Bool :=
  (t.guard.all fun p => pres.getLsbD p.1 = p.2) &&
  match t.await with
  | none => true
  | some a => pres.getLsbD a

/-- The signals named by a list of EMIT records. -/
def sigMask (ts : List Item2) : BitVec 64 := ts.foldl (fun m t => m ||| (1 <<< rfld t.r 0 6)) 0

/-- One round: records react, then every status that can be decided is decided (R111). -/
def oneRound (ts : List Item2) (emits : BitVec 64) (s : Rounds) : Rounds :=
  let now := ts.filter fun t => !s.done.contains t.i && t.ready s
  let done := s.done ++ now.map (·.i)
  let em := emits ||| sigMask (now.filter fun t => recOp t.r = 5 && t.acts s.pres)
  let wait := sigMask (ts.filter fun t => recOp t.r = 5 && !done.contains t.i)
  let pres := s.pres ||| (em &&& ~~~s.known)
  ⟨s.known ||| em ||| ~~~wait, pres, done⟩

/-- How a resolution ends. -/
inductive Resolved where
  | ok (pres : BitVec 64)
  | fail (cause : Byte) (unknown : BitVec 64)
  deriving DecidableEq, Repr

/-- The rounds, up to round 16 (R112, R113). A round 16 that leaves a status unknown, changes none and in which a record reacts
meets the conditions of 0x80 and of 0x81; the model raises 0x80 (DESIGN CHOICE, log entry 72). -/
def resolveGo (ts : List Item2) : Nat → BitVec 64 → Rounds → Resolved
  | 0, _, s => .fail 0x81 (~~~s.known)
  | fuel + 1, emits, s =>
    let t := oneRound ts emits s
    if t.known = ~~~0 && (ts.all fun i => t.done.contains i.i) then .ok t.pres
    else if t.known ≠ ~~~0 && t.known = s.known then .fail 0x80 (~~~t.known)
    else resolveGo ts fuel 0 t

/-- The current records of a graph. -/
def Graph.currentItems (x : Graph) : List Item2 :=
  if x.last1 then [] else (currentBlocks x.tree 18 x.walk (.sub 0)).flatMap fun b => blockItems x.tree b [] none

/-- The resolution of an instant: faces and the sample of the latches react in round 0 (R107, R110). -/
def State.resolve (s : State) (g : GraphIx) : Resolved :=
  let x := s.graph g
  resolveGo x.currentItems 17 (s.facesEmit g ||| x.latch) ⟨0, 0, []⟩

/-! ### Actions of records (R119, R121) -/

/-- A CHOOSE: it is refused with 0x82 where the plane is EMPTY or another graph's, and without effect on an ACTIVE one. -/
def State.chooseOk (s : State) (g : GraphIx) (page plane : Nat) : Option (CoreIx × Fin 16) :=
  ((s.graph g).place page).bind fun p =>
    let q := (s.region p.1 p.2).plane plane
    if q.st ≠ .empty && q.owner = some g then some p else none

/-- The CHOOSE records that act, in record order: refusals are raised, the last that stands decides for its region. Where that
one names the ACTIVE plane, the region keeps the choice it had before the instant: the earlier record does not count (DESIGN
CHOICE, log entry 72). No rule says by what token a control token chooses, so records are the only source of choices (log
entry 73). -/
def State.chooseAll (s : State) (g : GraphIx) (ts : List Item2) : State :=
  let made := ts.filterMap fun t => (s.chooseOk g (rfld t.r 0 6) (rfld t.r 6 2)).map fun p => (p, rfld t.r 6 2)
  let refused := ts.filter fun t => (s.chooseOk g (rfld t.r 0 6) (rfld t.r 6 2)).isNone
  let s1 := refused.foldl (fun t i => t.postGraph g
    { FaultInfo.none with cause := 0x82, ocause := 0x82, imp := true, origin := 2, tval := BitVec.ofNat 64 i.i }) s
  let last := made.foldl (fun (l : List ((CoreIx × Fin 16) × Nat)) c => l.filter (fun d => d.1 ≠ c.1) ++ [c]) []
  last.foldl (fun t (c : (CoreIx × Fin 16) × Nat) =>
    let r := t.region c.1.1 c.1.2
    if (r.plane c.2).st = .active then t else t.setRegion c.1.1 c.1.2 { r with choice := some c.2 }) s1

/-- The delay registers after an instant: every source at its latched value, the last record decides (R119, R121). -/
def dregNext (now : SMap Lane) (ts : List Item2) : SMap Lane :=
  ts.foldl (fun m t =>
    let src := now.get 0 (rfld t.r 40 5)
    let imm : Lane := BitVec.ofNat 40 (rfld t.r 0 40)
    let v : Lane := match rfld t.r 50 2 with
      | 0 => imm
      | 1 => src
      | _ => (src.setWidth 32 + imm.setWidth 32).signExtend 40
    m.set 0 (rfld t.r 45 5) v) now

/-- The pages to start with the tiles each is allowed: ARMSEC's with none, then the ARM records' in order (R121, R243). Of
several ARM records that arm one page the last in record order gives its TILES (DESIGN CHOICE, log entry 72). -/
def armList (armed : BitVec 64) (ts : List Item2) : List (Nat × Nat) :=
  (List.range 64).filterMap fun p => match (ts.filter fun t => t.r.getLsbD p).getLast? with
    | some t => some (p, rfld t.r 64 32)
    | none => if armed.getLsbD p then some (p, 0) else none

/-! ### Stray tokens (R116) -/

/-- The place of a token of a region: site and plane, a link stage or port stage, and the slot. -/
structure TokenPlace where
  e    : Elt
  link : Bool
  n    : Nat
  slot : Nat
  tok  : Token
  deriving DecidableEq, Repr

/-- The tokens in the link stages and ports of one plane of a site, in sweep order (R116). -/
def SitePlane.standing (x : SitePlane) (e : Elt) : List TokenPlace :=
  let of := fun (link : Bool) (m : SMap Stage) (n : Nat) =>
    (stageAt m n).toks.zipIdx.map fun (p : Token × Nat) => (⟨e, link, n, p.2, p.1⟩ : TokenPlace)
  (List.range 8).flatMap (of true x.links) ++ (List.range 6).flatMap (of false x.ports)

/-- The regions of a graph with a pending swap, ascending (R116). -/
def State.pendingSwaps (s : State) (g : GraphIx) : List (CoreIx × Fin 16) :=
  let keys := sortNat ((s.graph g).pages.map fun p => regionKey p.2.1 p.2.2)
  (keys.map fun k => (Fin.ofNat 256 (k / 16), Fin.ofNat 16 k)).filter fun (p : CoreIx × Fin 16) =>
    match (s.region p.1 p.2).choice with
    | some c => ((s.region p.1 p.2).plane c).owner = some g
    | none => false

/-- The stray tokens of a graph in sweep order: every link stage and port of the planes that it owns, ACTIVE or not, in each
region with a pending swap (R116). Within a site the planes stand in ascending order (DESIGN CHOICE, log entry 72). -/
def State.strays (s : State) (g : GraphIx) : List TokenPlace :=
  (s.pendingSwaps g).flatMap fun p => (List.range 16).flatMap fun i => ([0, 1, 2, 3] : List (Fin 4)).flatMap fun pl =>
    let q := (s.region p.1 p.2).plane pl.val
    let e : Elt := ⟨p.1, p.2, Fin.ofNat 16 i, pl⟩
    if q.owner = some g then (s.site e).standing e else []

/-- LINK of a token's place (R413). -/
def TokenPlace.code (t : TokenPlace) : Nat :=
  t.e.site.val + (if t.link then 2 ^ 4 * (t.n / 2) + 2 ^ 6 * (t.n % 2) else 2 ^ 20 * (t.n + 1)) + 2 ^ 7 * t.slot +
  2 ^ 8 * t.e.region.val + 2 ^ 12 * t.e.core.val

/-- A token taken from its place. -/
def State.dropToken (s : State) (t : TokenPlace) : State :=
  let x := s.site t.e
  let cut := fun (m : SMap Stage) =>
    SMap.set Stage.empty m t.n { stageAt m t.n with toks := (stageAt m t.n).toks.eraseIdx t.slot }
  s.setSite t.e (if t.link then { x with links := cut x.links } else { x with ports := cut x.ports })

/-- 0x66 for a graph, naming its first stray token (R116, R413, R414). -/
def State.strayInfo (s : State) (t : TokenPlace) (n : Nat) : FaultInfo :=
  let loc := locBits t.e (s.planeOf t.e).page
  { FaultInfo.none with cause := 0x66, ocause := 0x66, origin := 3, loc := loc, link := t.code, strays := n,
                        token := some t.tok, tval := BitVec.ofNat 64 loc }

/-! ### Clones and planes that leave -/

/-- A plane of a region cleared: EMPTY, owned by no graph, its sites blank (R87). -/
def State.clearPlane (s : State) (e : Elt) : State :=
  let s1 := ({ s with repair := { s.repair with badFrames := s.repair.badFrames.filter fun p =>
    !(p.1.core = e.core && p.1.region = e.region && p.1.plane = e.plane) } } : State).updPlane e fun _ => .none
  (List.range 16).foldl (fun t i => t.setSite { e with site := Fin.ofNat 16 i } .empty) s1

/-- The tokens that stand in the outputs of a clone's SPLIT, in the order in which they left its input; a closing token that it
has copied counts once (R202). -/
def Clone.splitOut (c : Clone) : List Token :=
  match (c.split.out 1).cur, (c.split.out 2).cur with
  | some x, some y => if x.closes then [x] else if c.split.router.turn then [y, x] else [x, y]
  | x, y => x.toList ++ y.toList

/-- The tokens of a stage after those of another. -/
def Stage.behind (x y : Stage) : Stage := { x with toks := x.toks ++ y.toks }

/-- A site with the tokens of another at the same places behind its own (R442, log entry 71). -/
def SitePlane.takeTokens (x y : SitePlane) : SitePlane :=
  let join := fun (m n : SMap Stage) (k : Nat) => (List.range k).foldl (fun (m : SMap Stage) i =>
    SMap.set Stage.empty m i ((stageAt m i).behind (stageAt n i))) m
  { x with links := join x.links y.links 8, ports := join x.ports y.ports 6, cuffs := join x.cuffs y.cuffs 4
           outs := ([0, 1, 2] : List Nat).foldl (fun (m : SMap OutPort) o =>
             let a := (x.out o).cur.toList ++ (x.out o).nxt.toList ++ (y.out o).cur.toList ++ (y.out o).nxt.toList
             SMap.set OutPort.empty m o ⟨a.head?, a.tail.head?⟩) x.outs }

/-- The tokens inside a clone stand at the same places of its page, behind those there (R442, log entry 71). -/
def State.mergeClone (s : State) (g : GraphIx) (c : Clone) : State := match s.cuffOf g c.page with
  | none => s
  | some a => (List.range 16).foldl (fun (t : State) i =>
      let n : Fin 16 := Fin.ofNat 16 i
      let e : Elt := { a with site := n }
      t.setSite e ((t.site e).takeTokens (t.site { c.cuff with site := n }))) s

/-- The clone of a page released: its tokens stand in the page, what waits at its SPLIT enters the page itself, and what waits at
its ORDER goes on (R233, R442). -/
def State.releaseClone (s : State) (g : GraphIx) (c : Clone) : State :=
  let s1 := (s.mergeClone g c).updGraph g fun x => { x with clone := x.clone.filter (·.page ≠ c.page) }
  let s2 := match s.cuffOf g c.page with
    | some a =>
      let ordered := fun (t : State) (i : Nat) =>
        let out := stageAt (t.site a).cuffs (8 + i)
        let toks := (c.order.out 1).cur.toList ++ out.toks ++ (stageAt (t.site c.cuff).cuffs (8 + i)).toks
        match t.streamTo g a c.page i with
        | some dst => toks.foldl (fun (u : State) k => u.arrive dst k)
            (t.setSite a (let x := t.site a; { x with cuffs := x.cuffs.set .empty (8 + i) .empty }))
        | none => t
      let s3 := ((s.graph g).portsOf c.page 1).foldl ordered s1
      s3.setSite a (let x := s3.site a
        { x with cuffs := (List.range 4).foldl (fun m i =>
            let w := stageAt m (12 + i)
            let got := if ((s.graph g).portsOf c.page 0).head? = some i then c.splitOut else []
            SMap.set Stage.empty (SMap.set Stage.empty m i { stageAt m i with toks := (stageAt m i).toks ++ got ++ w.toks })
              (12 + i) Stage.empty) x.cuffs })
    | none => s1
  s2.clearPlane c.cuff

/-- Every clone of a graph released. -/
def State.releaseClones (s : State) (g : GraphIx) : State := (s.graph g).clone.foldl (fun t c => t.releaseClone g c) s

/-! ### Elements at reset, and the end of a section (R121, R123, R441) -/

/-- Whether the elements of a site are at reset; `live` is LIVE of its tile. A matrix node whose group begins from +0 is at its group
boundary until its first step. -/
def SitePlane.atReset (x : SitePlane) (live : Bool) : Bool :=
  let m := x.matrix
  x.cell = .reset && x.fibre = .reset && x.router = .reset &&
  x.elem.drain.isNone && x.rout.drain.isNone && !x.elem.skip && !x.rout.skip &&
  (!m.begun || x.comp.all fun f => !mxInit f) && m.steps = 0 && m.buf.isEmpty && m.load = 0 && !m.due && m.cmd.isNone &&
  (live || x.tile.ring.isEmpty) && x.tile.pos = 0

/-- Whether a generator has consumed no part of a bag, row, group or fibre. -/
def Gen.atReset (q : Gen) : Bool :=
  !gIen q.f || (q.part.first.isNone && q.part.toks.isEmpty && !q.part.seen && !((opcOf q.f = 5 || opcOf q.f = 6) && q.part.n ≠ 0))

/-- Whether a matrix node of a section performs no further step: it has emitted its D. One without a count never does (R367). -/
def SitePlane.stepsOver (x : SitePlane) : Bool := match x.comp with
  | some f => !(opcOf f = 0x40 || opcOf f = 0x41) || (x.matrix.halted && !x.matrix.expire)
  | none => true

/-- Whether the section of a page has reached its D: its generators have delivered D, its nodes have emitted theirs, every element of
the page is at reset (R121, R123; log entry 82). -/
def State.reachedD (s : State) (g : GraphIx) (page : Nat) : Bool :=
  ((s.activeElts g).all fun e =>
    (s.planeOf e).page ≠ page || ((s.site e).atReset true && (s.site e).stepsOver)) &&
  (s.graph g).gens.all fun q =>
    q.2.page ≠ page || q.2.parts.isEmpty || (if gIen q.2.f then q.2.atReset else q.2.fin)

/-- The sections that have reached their D have ended (R123). -/
def State.endSections (s : State) (g : GraphIx) : State :=
  s.updGraph g fun x => { x with running := x.running.filter fun p => !s.reachedD g p }

/-! ### Instant end (R117) -/

/-- The elements of a plane that becomes ACTIVE: rings empty, accumulators +0 (R248, R357). -/
def SitePlane.activate (x : SitePlane) : SitePlane := { x with tile := .reset, matrix := .reset }

/-- A plane becomes ACTIVE. In sequential mode the one before becomes SHADOW; every plane keeps its own streams (R85, R87). -/
def State.activatePlane (s : State) (e : Elt) (inter : Bool) : State :=
  let s1 := (List.range 16).foldl (fun t i =>
    let u : Elt := { e with site := Fin.ofNat 16 i }
    t.setSite u (t.site u).activate) s
  let s2 := if inter then s1
    else ([0, 1, 2, 3] : List (Fin 4)).foldl (fun (t : State) p =>
      if p ≠ e.plane && ((t.region e.core e.region).plane p.val).st = .active then
        t.updPlane { e with plane := p } fun q => { q with st := .shadow, since := s.cycle }
      else t) s1
  let s3 := s2.updPlane e fun q => { q with st := .active }
  s3.setRegion e.core e.region { s3.region e.core e.region with inter := inter }

/-! ### The bindings of generators and streams (R228, R229, R454) -/

/-- The frames of a generator in a plane. -/
def Gen.partsAt (q : Gen) (p : Nat) : SMap FrameBits :=
  q.frames.filterMap fun (f : Nat × FrameBits) => if f.1 / 4 = p then some (f.1 % 4, f.2) else .none

/-- The plane of the frames that a generator runs with: one that is ACTIVE in the region of the page they name (R454). -/
def State.planeFor (s : State) (g : GraphIx) (q : Gen) : Option (Fin 4) :=
  let x := s.graph g
  ([0, 1, 2, 3] : List (Fin 4)).find? fun p =>
      let u : Gen := { q with parts := q.partsAt p.val }
      !u.parts.isEmpty && (match x.place (x.pageOf u) with
        | some (c, r) => let pl := (s.region c r).plane p.val; pl.st = .active && pl.owner = some g
        | none => false)

/-- The frames that a generator runs with; none in a plane for which it has none (R454). -/
def State.partsOf (s : State) (g : GraphIx) (q : Gen) : SMap FrameBits := match s.planeFor g q with
  | some p => q.partsAt p.val
  | none => []

/-- A generator that holds another element, or one of another plane, from now on: it starts from reset. -/
def Gen.become (q : Gen) (pl : Option (Fin 4)) (ps : SMap FrameBits) : Gen :=
  if ps = q.parts && pl.getD q.plane = q.plane then q
  else { q with plane := pl.getD q.plane, parts := ps, out := .empty, line := [], loop := [0, 0, 0, 0, 0, 0], on := storeNest ps, fin := false, halt := false
                half := .reset, part := .empty, frameNo := 0, hot := .none, cam := [], xfer := [], reqs := [], origins := [] }

/-- The Manhattan distance of two places in an array of so many columns. -/
def hops (cols a b : Nat) : Nat :=
  let d := fun (x y : Nat) => if x ≤ y then y - x else x - y
  d (a % cols) (b % cols) + d (a / cols) (b / cols)

/-- The latency of an inter-page stream between two places (R228). -/
def streamLatency (a b : CoreIx × Fin 16) : Nat :=
  let r := hops 4 a.2.val b.2.val
  if a.1 = b.1 then 4 + r else 12 + r + 8 * hops 8 (a.1.val % 64) (b.1.val % 64)

/-- What an in stream of a plane holds: two tokens for each cycle of its latency; where no page feeds it, as the shortest
stream (R228). -/
def State.streamCap (s : State) (g : GraphIx) (e : Elt) (i : Nat) : Nat :=
  match s.streamInto g e (s.planeOf e).page i with
  | some (_, a) => 2 * streamLatency (a.core, a.region) (e.core, e.region)
  | none => 8

/-- Generators take the frames of their ACTIVE planes, and the in streams of every plane their holdings (R228, R454). -/
def State.rebind (s : State) (g : GraphIx) : State :=
  let s1 := s.updGraph g fun x => { x with gens := x.gens.mapV .none fun _ q => q.become (s.planeFor g q) (s.partsOf g q) }
  (s1.planesWith g fun q => q.st = .active || q.st = .shadow).foldl (fun t e =>
    let a : Elt := { e with site := 15 }
    let ports := List.range 4
    t.setSite a (let x := t.site a
      { x with cuffs := ports.foldl (fun m i =>
          SMap.set Stage.empty m i { stageAt m i with cap := t.streamCap g a i }) x.cuffs })) s1

/-- Every chosen plane of the graph that is SHADOW is swapped in; a clone of its page is released (R117, R233). -/
def State.swapAll (s : State) (g : GraphIx) : State :=
  let s1 := (s.graph g).pages.foldl (fun t p =>
    let r := t.region p.2.1 p.2.2
    match r.choice with
    | some c =>
      let q := r.plane c
      if q.st = .shadow && q.owner = some g then
        let t1 := match (t.graph g).clone.find? (·.page = p.1) with
          | some k => t.releaseClone g k
          | none => t
        let inter := ((t.graph g).pageInfo p.1).any (·.inter)
        let t2 := t1.activatePlane ⟨p.2.1, p.2.2, 0, Fin.ofNat 4 c⟩ inter
        t2.setRegion p.2.1 p.2.2 { t2.region p.2.1 p.2.2 with choice := none }
      else t
    | none => t) s
  if s1.regions = s.regions then s1 else s1.rebind g

/-- A generator at the start of its section: a nest without input begins, a camera opcode copies its register; the nest of
AFFST follows its stream, whatever sections start (R313, R341, log entry 15). -/
def Gen.startSection (q : Gen) (cams : SMap (List Byte)) : Gen :=
  let op := opcOf q.f
  { q with on := if op = 0x02 then q.on else !gIen q.f, fin := false, halt := false
           loop := if op = 0x02 then q.loop else [0, 0, 0, 0, 0, 0]
           part := if op = 0x01 then { q.part with n := 0 } else q.part
           frameNo := 0, hot := .none
           cam := if 0x11 ≤ op ∧ op ≤ 0x13 then cams.get Camera.zero (fld q.f 0 4) else q.cam }

/-- The section of a page starts: its generators, and the count of its matrix nodes (R117, R121, R367). -/
def State.startPage (s : State) (g : GraphIx) (page tiles : Nat) : State :=
  let s1 := s.updGraph g fun x =>
    { x with running := if x.running.contains page then x.running else page :: x.running
             gens := x.gens.mapV .none fun _ q => if q.page = page && !q.parts.isEmpty then q.startSection x.cams else q }
  (s1.activePlanes g).foldl (fun t e =>
    if (t.planeOf e).page = page then
      let m : Elt := { e with site := 5 }
      let x := t.site m
      if x.comp.isSome then t.setSite m (x.setMatrix (x.matrix.arm tiles)) else t
    else t) s1

/-- The event flags of every face of a graph cleared, in whatever plane it stands (R109, R117). -/
def State.clearFaces (s : State) (g : GraphIx) : State :=
  (s.mapOwned g fun _ x => { x with elem := { x.elem with face := .clear }, rout := { x.rout with face := .clear } }).updGraph g
    fun x => { x with gens := x.gens.mapV .none fun _ q => { q with half := { q.half with face := .clear } } }

/-- Every open window of a graph ends: a generator is always in one, acted or not; all go on with the same number (R402, log
entry 14). -/
def Graph.endWindows (x : Graph) : Graph :=
  let w := (x.gens.map fun q => q.2.win + 1).foldl max 0
  { x with gens := x.gens.mapV .none fun _ q => { q with win := w, opened := false, half := { q.half with firing := 0 } } }

/-- The firing ordinals of a graph's elements start anew with a window (R402, R413). -/
def State.newWindow (s : State) (g : GraphIx) : State :=
  s.mapElts g fun _ x => { x with elem := { x.elem with firing := 0 }, rout := { x.rout with firing := 0 } }

/-- The windows of a graph end, once for an instant end or a cut, and its pockets drain as far as they can (R402, R403, R439). -/
def State.endAndDrain (s : State) (g : GraphIx) : State :=
  let s1 := if (s.graph g).closing then s
    else ((s.updGraph g Graph.endWindows).newWindow g).updGraph g fun x => { x with closing := true }
  s1.drainAll g

/-- The graph ends: GWAIT gets the status; clones are released (R124, R233, R244). -/
def State.endGraph (s : State) (g : GraphIx) (status : Word) : State :=
  (s.releaseClones g).updGraph g fun x =>
    { x with st := .ended, ended := some status, held := none, raised := [], noted := [], tocommit := none, running := [], closing := false
             ctx := .running, frozen := false }

/-! ### Record mode (R235, R236) -/

/-- Whether no stage of a map holds a token. -/
def noTokens (m : SMap Stage) : Bool := m.all fun p => p.2.toks.isEmpty

/-- The entry queue of a block as far as it has been used. -/
def Graph.blockQ (x : Graph) (b : Nat) : BlockQ := x.blocks.get ⟨0, 0, false⟩ b
/-- WAIT of a block (R235). -/
def Graph.waiting (x : Graph) (b : Nat) : Nat := (x.blockQ b).tail - (x.blockQ b).head

/-- Whether every in stream of every plane of a graph is empty. -/
def State.streamsEmpty (s : State) (g : GraphIx) : Bool :=
  ((s.ownedPlanes g).all fun a => noTokens (s.site { a with site := 15 }).cuffs) &&
  (s.graph g).gens.all fun q => q.2.out = .empty && q.2.line.isEmpty

/-- Whether a record-mode graph has no record left: every WAIT is 0 and every stream is empty (R236). -/
def State.recordsDone (s : State) (g : GraphIx) : Bool :=
  let x := s.graph g
  x.nblk ≠ 0 && ((List.range x.nblk).all fun b => x.waiting b = 0) && s.streamsEmpty g &&
  x.gens.all fun q => !q.2.on || storeNest q.2.parts

/-- The walk after the instant, and whether the graph goes on (R122-R124). A record-mode graph ends with an instant in which no
section starts and that leaves no record; while it has records, its next instant always begins (R236, log entry 45). -/
def State.nextInstant (s : State) (g : GraphIx) (pres : BitVec 64) (armed : Bool) : State :=
  let x := s.graph g
  if x.last1 || (!armed && s.recordsDone g) then s.endGraph g 0
  else
    let (fin, w) := advance x.tree pres 18 x.walk (.sub 0)
    let y := { x with walk := w, st := .run, tocommit := none, armed := 0, clean := 0, bare := 0, closing := false }
    if fin then
      if armed then s.setGraph g { y with last1 := true } else (s.setGraph g y).endGraph g 0
    else
      let cur := currentBlocks x.tree 18 w (.sub 0)
      let waits := !armed && !cur.isEmpty && cur.all fun b => match b with
        | i :: _ => recOp (recAt x.tree i) = 10 && !pres.getLsbD (rfld (recAt x.tree i) 0 6) && (Walking.at x.walk i).2.1
        | [] => false
      s.setGraph g { y with asleep := waits && x.latch = 0 && x.arms = 0 && x.nblk = 0 }

/-- COMMIT: stray tokens hold the graph; else its windows end and drain, and the three steps of instant end follow, once
every pocket is empty (R114, R116, R117, R402, R403). -/
def State.commit (s : State) (g : GraphIx) : State :=
  let x := s.graph g
  match x.tocommit with
  | none => s
  | some pres =>
    match s.strays g with
    | t :: r => s.holdGraph g (s.strayInfo t (r.length + 1)) 0
    | [] =>
      let s1 := s.endAndDrain g
      let y := s1.graph g
      if !y.pocket.isEmpty || !y.raised.isEmpty then s1
      else
        let acting := x.currentItems.filter (·.acts pres)
        let arms := armList x.armed (acting.filter fun t => recOp t.r = 4)
        let s2 := (s1.endSections g).updGraph g fun z => { z.tidy with
          sigs := pres, dreg := dregNext z.dreg (acting.filter fun t => recOp t.r = 8) }
        let s3 := s2.swapAll g
        let s4 := arms.foldl (fun t (p : Nat × Nat) => t.startPage g p.1 p.2) s3
        (s4.clearFaces g).nextInstant g pres (!arms.isEmpty)

/-- RESOLVE: the latches are sampled, the statuses resolved; an instant that cannot resolve is abandoned, and the graph
holds (R107, R113, R114). -/
def State.resolveInstant (s : State) (g : GraphIx) : State :=
  let x := s.graph g
  match s.resolve g with
  | .fail c m => s.holdGraph g { FaultInfo.none with cause := c, ocause := c, origin := 2, tval := m } 0
  | .ok pres =>
    let acting := x.currentItems.filter (·.acts pres)
    let s1 := s.setGraph g { x with st := .commit, tocommit := some pres, armed := x.arms, latch := 0, arms := 0 }
    (s1.chooseAll g (acting.filter fun t => recOp t.r = 9)).commit g

/-- Whether a graph is quiet: two clean sweeps (R115, R440). -/
def Graph.quiet (x : Graph) : Bool := 2 ≤ x.clean

/-- Whether a graph's instant may resolve now: it is quiet in RUN, no fault stands, no cut is in progress, nothing is
frozen, and the next instant may begin (R114, R123, R439). -/
def Graph.mayResolve (x : Graph) : Bool :=
  x.live && x.st = .run && x.quiet && x.raised.isEmpty && x.noted.isEmpty && x.ctx = .running && !x.frozen && !x.asleep

/-- INSTANT_RESOLVE. -/
def execInstantResolve (g : GraphIx) (s : State) : Answer :=
  let x := s.graph g
  if x.mayResolve then .next (s.resolveInstant g)
  else if x.live && x.raised.isEmpty && x.noted.isEmpty then
    if x.st = .resolve then .next (s.resolveInstant g)
    else if x.st = .commit then .next (s.commit g)
    else .next s
  else .next s

end Sys2Proof.Machine
end

