-- ==== Sys2Proof/Machine/Faults.lean ====
section
/-! DEFINITION. Faults of a graph: noting them, the discarding and the delivery at quiet, replay's choice, and what GCTL
does to a held graph (23 R400-R416). -/

namespace Sys2Proof.Machine

/-! ### Noting (R407) -/

/-- Loads in progress in the regions of a graph become INCOMPLETE; they start again from the first frame (R87). -/
def State.interruptLoads (s : State) (g : GraphIx) : State :=
  (s.graph g).spots.foldl (fun t p => ([0, 1, 2, 3] : List (Fin 4)).foldl (fun t pl =>
    let q := (t.region p.2.1 p.2.2).plane pl.val
    if q.st = .loading then
      let t1 := t.updPlane ⟨p.2.1, p.2.2, 0, pl⟩ fun q => { q with st := .incomplete }
      match q.owner with
      | some o => t1.updGraph o fun x => { x with loads := x.loads.map fun l =>
          if l.plane = pl.val then { l with bytes := [] } else l }
      | none => t1
    else t) t) s

/-- A matrix node that a cut being withdrawn finds at its group boundary stays stopped (R438, R439, log entry 83). -/
def SitePlane.keepStopped (x : SitePlane) : SitePlane :=
  x.setMatrix { x.matrix with stopped := x.matrix.stopped || (!x.matrix.begun && x.matrix.load = 0) }

/-- ELEMENT_FAULT: the faults raised are noted, each against its window; generators have stopped with the raising. A cut in
progress is withdrawn, and loads in the graph's regions are interrupted (R87, R407, R439). -/
def State.noteFaults (s : State) (g : GraphIx) : State :=
  let x := s.graph g
  if x.raised.isEmpty then s
  else
    let cutting := x.ctx = .draining || x.ctx = .saving
    let s1 := s.setGraph g { x with
      noted := x.noted ++ x.raised, raised := [], clean := 0, bare := 0
      floor := if x.noted.isEmpty then x.lowWin else x.floor
      closing := x.closing && !cutting
      ctx := if cutting then .running else x.ctx, frozen := if cutting then false else x.frozen }
    (if cutting then s1.mapElts g fun _ y => y.keepStopped else s1).interruptLoads g

def execElementFault (g : GraphIx) (s : State) : Answer := .next (s.noteFaults g)

/-! ### What a fault discards (R407) -/

/-- A stage's status once its holder is gone: EMPTY from FILLING, FULL from DRAINING (R407). -/
def freeStatus (b : Byte) : Byte :=
  if b.toNat / 32 = 1 then 0 else if b.toNat / 32 = 6 then 0x80 else b

/-- A tile whose stages no element holds. -/
def Tile.letGo (t : Tile) : Tile := { t with ring := t.ring.mapV 0 fun _ b => freeStatus b, pos := 0 }

/-- A site without tokens in its links, ports and outputs (R407). -/
def SitePlane.blank (x : SitePlane) : SitePlane :=
  { x with links := [], ports := [], outs := [], cuffs := x.cuffs.mapV .empty fun _ y => ⟨[], true, y.cap⟩, stage := [], tile := x.tile.letGo }

/-- A generator without tokens on their way in or out. -/
def Gen.blank (q : Gen) : Gen :=
  { q with inq := ⟨[], true, q.inq.cap⟩, scq := ⟨[], true, q.scq.cap⟩, out := .empty, line := [], xfer := [], reqs := [],
           part := .empty }

/-- Every token of a graph in links, ports and outputs is discarded, and held stages are let go (R407). -/
def State.discardTokens (s : State) (g : GraphIx) : State :=
  (s.mapOwned g fun _ x => x.blank).updGraph g fun x =>
    { x with gens := x.gens.mapV .none fun _ q => q.blank
             clone := x.clone.map fun c => { c with split := .empty, order := .empty }
             chains := x.chains.mapV .idle fun _ k => { k with way := [], held := [] } }

/-! ### Replay (R407, R408) -/

/-- Replay order: window, page, element with generators after sites, firing (R408). -/
def FaultInfo.order (i : FaultInfo) : Nat :=
  let elt := match i.gen with
    | .some n => 16 + n
    | .none => i.loc / 4 % 16
  ((i.window * 64 + i.loc / 2 ^ 18 % 64) * 512 + elt) * 2 ^ 40 + i.firing

/-- The first of some faults in replay order (R408). -/
def firstFault (l : List FaultInfo) : Option FaultInfo :=
  l.foldl (fun b i => match b with
    | none => some i
    | some j => if i.order < j.order then some i else some j) none

/-- The lowest faulted window: of the windows with a fault and of those that had not ended as the first was noted. A store refused
at its drain faults none: its window has ended (R407, R411). -/
def Graph.faultedWin (x : Graph) : Nat := ((x.noted.filter fun i => !i.imp).map (·.window)).foldl min x.floor

/-- Whether an entry of the replay log has an uncorrectable word (R435). -/
def LogEntry.spoiled (e : LogEntry) : Bool := match e.what with
  | .spoiled _ => true
  | _ => false

/-- The fault delivered, f being the one noted first: a store refused at its drain with its own cause; where a window from wl to that
of f cannot be replayed, f as 0x30; where the log of those windows has an uncorrectable word, f as 0xB0; else what replay meets
first up to that window. TVAL is OCAUSE for 0x30, unless the origin is an error token (R408, R410, R411, R414, R435). -/
def Graph.delivered (x : Graph) (f : FaultInfo) : FaultInfo :=
  let wl := x.faultedWin
  match x.noted.find? (·.imp) with
  | some i => i
  | none =>
    if x.dead.any fun d => decide (wl ≤ d ∧ d ≤ f.window) then
      { f with cause := 0x30, imp := true, ocause := f.cause, tval := if f.origin = 1 then f.tval else f.cause.setWidth 64 }
    else if x.logged.any fun e => decide (wl ≤ e.win ∧ e.win ≤ f.window) && e.spoiled then
      { f with cause := 0xB0, imp := true, ocause := f.cause }
    else (firstFault (x.noted.filter fun i => i.window ≤ f.window)).getD f

/-- The windows of a graph below wl drain in order, as far as the first that waits. -/
def State.drainBelow (s : State) (g : GraphIx) (wl : Nat) : State :=
  (sortNat (((s.graph g).pocket.map (·.win)).filter (· < wl))).foldl (fun t w =>
    if (t.graph g).pocket.any fun e => e.win < w then t else t.drainSome g fun e => e.win = w) s

/-- No generator of the graph is past a window: what it holds of the windows from there on is not ended (R407, R416). -/
def Graph.backTo (x : Graph) (wl : Nat) : Graph :=
  { x with gens := x.gens.mapV .none fun _ q => { q with win := min q.win wl } }

/-- REPLAY: at quiet the windows below the lowest faulted one drain to completion; then the stores from it on and all tokens are
discarded, and the graph holds on the fault that replay gives (R407-R411). A store refused meanwhile is noted first. -/
def State.replayGraph (s : State) (g : GraphIx) : State :=
  match (s.graph g).noted with
  | [] => s
  | f :: _ =>
    let wl := (s.graph g).faultedWin
    let s1 := s.drainBelow g wl
    let y := s1.graph g
    if !y.raised.isEmpty || y.pocket.any (·.win < wl) then s1
    else ((s1.updGraph g fun y => { y.backTo wl with pocket := [] }).discardTokens g).holdGraph g (y.delivered f) wl

/-- Whether a graph's faults are delivered now: its elements have become quiet (R407). -/
def Graph.mayReplay (x : Graph) : Bool := x.live && !x.noted.isEmpty && x.raised.isEmpty && x.quiet

def execReplay (g : GraphIx) (s : State) : Answer := .next (if (s.graph g).mayReplay then s.replayGraph g else s)

/-! ### GCTL (R416) -/

/-- An element after the reset of R98; the event flags of the instant stay. -/
def Half.anew (h : Half) : Half := { Half.reset with face := h.face }

/-- A site whose elements have been reset (R98, R416). -/
def SitePlane.anew (x : SitePlane) : SitePlane :=
  { x with elem := x.elem.anew, rout := x.rout.anew, cell := .reset, fibre := .reset, router := .reset
           matrix := { x.matrix with acc := [], buf := [], steps := 0, begun := false, load := 0, held := [], due := false
                                     afmt := none, bfmt := none, cmd := none, stopped := false }
           origins := [] }

/-- A generator set back to its opening of window w: its counters as logged then (R406, R416). -/
def Gen.rewind (q : Gen) (w : Nat) : Gen :=
  let q1 := { q with half := q.half.anew, halt := false, part := .empty, origins := [] }
  match q.snaps.find? (·.win = w) with
  | some p => { q1 with win := w, opened := false, loop := p.loop, on := p.on, frameNo := p.frames, hot := p.hot, fin := false }
  | .none => { q1 with win := min q.win w, opened := false }

/-- The lowest faulted window runs again (R416). -/
def State.rerun (s : State) (g : GraphIx) (wl : Nat) : State :=
  let s1 := s.mapElts g fun _ x => x.anew
  let x := s1.graph g
  let log := x.logs.find? (·.1 = wl)
  let s2 := match log with
    | some l => l.2.2.foldl (fun (t : State) (p : Nat × Tile) =>
        let e := eltOf p.1
        t.setSite e ((t.site e).setTile p.2)) s1
    | none => s1
  s2.setGraph g { x with
    st := .run, held := none, clean := 0, bare := 0
    gens := x.gens.mapV .none fun _ q => if q.parts.isEmpty then q else q.rewind wl
    chains := SMap.mapV Chain.idle (fun _ (k : Chain) =>
      { k with way := [], held := [], stuck := false, since := s.cycle }) (match log with | some l => l.2.1 | none => x.chains)
    logged := x.logged.filter (·.win < wl), logs := x.logs.filter (·.1 < wl), dead := x.dead.filter (· < wl) }

/-- RESUME of a held graph: none where the cause allows none (R416). -/
def State.gctlResume (s : State) (g : GraphIx) : Option State :=
  let x := s.graph g
  match x.held with
  | none => none
  | some h =>
    if x.st ≠ .held then none
    else if h.cause = 0x80 || h.cause = 0x81 then
      some (s.setGraph g { x with st := .resolve, held := none })
    else if h.cause = 0x66 then some ((s.setGraph g { x with st := .commit, held := none }).commit g)
    else if x.blocks.any fun b => b.2.bad then
      some (s.setGraph g { x with
        st := .run, held := none, clean := 0, bare := 0
        blocks := x.blocks.mapV ⟨0, 0, false⟩ fun _ b => { b with bad := false } })
    else if h.imp || h.cause = 0x30 then none
    else some (s.rerun g h.wl)

/-- END of a held graph; a plane with an uncorrectable frame goes EMPTY (R416, R434). -/
def State.gctlEnd (s : State) (g : GraphIx) : Option State :=
  let x := s.graph g
  match x.held with
  | none => none
  | some h =>
    if x.st ≠ .held then none
    else
      let s1 := if h.cause = 0xB2 then
          (s.ownedPlanes g).foldl (fun (t : State) e =>
            if t.repair.badFrames.any fun b => b.2.2 && b.1.core = e.core && b.1.region = e.region && b.1.plane = e.plane
            then t.clearPlane e else t) s
        else s
      some (s1.endGraph g (statusWord h.cause h.tval.toNat))

/-- DROP: every stray token of the graph is discarded, then COMMIT (R416). -/
def State.gctlDrop (s : State) (g : GraphIx) : Option State :=
  let x := s.graph g
  if x.st = .held && x.held.any fun h => h.cause = 0x66 then
    let s1 := (s.strays g).reverse.foldl State.dropToken s
    some ((s1.updGraph g fun y => { y with st := .commit, held := none }).commit g)
  else none

/-- NEXT: the stray token named in LINK is discarded, then COMMIT (R416). -/
def State.gctlNext (s : State) (g : GraphIx) : Option State :=
  let x := s.graph g
  match x.held with
  | none => none
  | some h =>
    if x.st = .held && h.cause = 0x66 then
      let s1 := match (s.strays g).find? fun t => t.code = h.stray with
        | some t => s.dropToken t
        | none => s
      some ((s1.updGraph g fun y => { y with st := .commit, held := none }).commit g)
    else none

/-- The effect of a GCTL action, where the graph allows it. -/
def execGctlResume (g : GraphIx) (s : State) : Answer := .next ((s.gctlResume g).getD s)
def execGctlEnd (g : GraphIx) (s : State) : Answer := .next ((s.gctlEnd g).getD s)
def execGctlDrop (g : GraphIx) (s : State) : Answer := .next ((s.gctlDrop g).getD s)
def execGctlNext (g : GraphIx) (s : State) : Answer := .next ((s.gctlNext g).getD s)

end Sys2Proof.Machine
end

