-- ==== Sys2Proof/Machine/Check.lean ====
section
/-! DEFINITION. Configuration images and the load checks (07 R127-R147; 09 R170; 10 R196, R199, R205, R208; 11 R234,
R235; 13 R275; 14 R282; 16 R303-R321; 17 R345; 19 R358, R364; 20 R386; 06 R120, R125). Where the spec leaves the choice
between two causes or the place of a check open, see log entry 40. -/

namespace Sys2Proof.Machine

/-- A failed check: its cause and TVAL; none, every check passes. -/
abbrev Bad := Option (Byte × Nat)

/-- The first failure of several, in order. -/
def firstBad : List Bad → Bad
  | [] => none
  | some b :: _ => some b
  | none :: r => firstBad r

/-- A failure where a condition holds. -/
def badIf (b : Bool) (cause : Byte) (tval : Nat) : Bad := if b then some (cause, tval) else none

/-- The least of some numbers. -/
def leastOf : List Nat → Option Nat
  | [] => none
  | n :: r => some (r.foldl min n)

/-! ### The parts of an image (R127-R130, R483) -/

/-- A size padded to a multiple of 32. -/
def pad32 (n : Nat) : Nat := (n + 31) / 32 * 32
def imgPages (bs : List Byte) : Nat := byteNat bs 5 1
def imgGens (bs : List Byte) : Nat := byteNat bs 6 2
def imgFrames (bs : List Byte) : Nat := byteNat bs 8 4
def imgCtrln (bs : List Byte) : Nat := byteNat bs 12 2
def imgLevels (bs : List Byte) : Nat := byteNat bs 14 2
def imgCammask (bs : List Byte) : Nat := byteNat bs 16 2
def imgStores (bs : List Byte) : Nat := byteNat bs 18 1
def imgNblk (bs : List Byte) : Nat := byteNat bs 20 2
def imgBlktab (bs : List Byte) : Nat := byteNat bs 24 8
def imgStreams (bs : List Byte) : Nat := byteNat bs 40 2
/-- The cameras an image includes (R128). -/
def imgCams (bs : List Byte) : List Nat := (List.range 16).filter fun n => (imgCammask bs).testBit n
/-- Offset of the store table. -/
def imgStoreOff (bs : List Byte) : Nat := 256 + pad32 (8 * imgPages bs)
/-- Offset of the stream table. -/
def imgStreamOff (bs : List Byte) : Nat := imgStoreOff bs + pad32 (8 * imgStores bs)
/-- Offset of the camera images. -/
def imgCamOff (bs : List Byte) : Nat := imgStreamOff bs + pad32 (4 * imgStreams bs)
/-- Offset of the frames. -/
def imgFrameOff (bs : List Byte) : Nat := imgCamOff bs + 128 * (imgCams bs).length
/-- Offset of the controller records. -/
def imgRecOff (bs : List Byte) : Nat := imgFrameOff bs + 32 * imgFrames bs
/-- The size that R127 gives the image. -/
def imgSize (bs : List Byte) : Nat := imgRecOff bs + 16 * imgCtrln bs
/-- Page-table entry k. -/
def imgPageEntry (bs : List Byte) (k : Nat) : Nat := byteNat bs (256 + 8 * k) 8
/-- A page-table entry's fields (R129). -/
def pageInfoOf (e : Nat) : PageInfo := ⟨e % 64, bits e 12 1 = 1, bits e 13 1 = 1, bits e 14 2, bits e 16 8⟩
/-- The page table. -/
def imgTable (bs : List Byte) : List PageInfo := (List.range (imgPages bs)).map fun k => pageInfoOf (imgPageEntry bs k)
/-- The stream table (R483). -/
def imgStreamTable (bs : List Byte) : List StreamInfo := (List.range (imgStreams bs)).map fun k =>
  let e := byteNat bs (imgStreamOff bs + 4 * k) 4
  ⟨0, bits e 0 6, bits e 6 2, bits e 8 6, bits e 14 2⟩
/-- The addresses of the store descriptors (R130). -/
def imgStoreTable (bs : List Byte) : List Nat := (List.range (imgStores bs)).map fun k => byteNat bs (imgStoreOff bs + 8 * k) 8
/-- A camera image by its place among those included. -/
def imgCamImage (bs : List Byte) (i : Nat) : List Byte := (bs.drop (imgCamOff bs + 128 * i)).take 128
/-- The frames, in image order. -/
def imgFrameList (bs : List Byte) : List FrameBits := (List.range (imgFrames bs)).map fun i =>
  BitVec.ofNat 256 (byteNat bs (imgFrameOff bs + 32 * i) 32)
/-- The controller records. -/
def imgRecords (bs : List Byte) : List RecordBits := (List.range (imgCtrln bs)).map fun i =>
  BitVec.ofNat 128 (byteNat bs (imgRecOff bs + 16 * i) 16)
/-- DINIT of the delay registers. -/
def imgDinit (bs : List Byte) : List Lane := (List.range 32).map fun n => BitVec.ofNat 40 (byteNat bs (64 + 5 * n) 5)

/-! ### Step 1: header and tables, CRC (R128-R130, R146, R147, R235, R483) -/

/-- The first byte of a range that holds a bit outside a mask. -/
def reservedAt (bs : List Byte) (o n mask : Nat) : List Nat :=
  ((List.range n).filter fun i => (bs.getD (o + i) 0) &&& BitVec.ofNat 8 (255 - mask / 2 ^ (8 * i) % 256) ≠ 0).map (o + ·)

/-- The offsets in the header that break R128 or R235. MAGIC, whose bytes the rule fixes, counts from its first wrong byte; a field
that is out of range counts from its first byte (log entry 74). BLKTAB is zero unless the image is record-mode (R235). -/
def headerFaults (bs : List Byte) : List Nat :=
  let at_ := fun (b : Bool) (o : Nat) => if b then [o] else []
  let lv := imgLevels bs
  (List.range 4).filter (fun i => bs.getD i 0 ≠ BitVec.ofNat 8 (0xD4C17A0E / 2 ^ (8 * i))) ++ at_ (byteNat bs 4 1 ≠ 1) 4 ++
  at_ (imgPages bs = 0 || decide (64 < imgPages bs)) 5 ++ at_ (decide (256 < imgGens bs)) 6 ++
  at_ (imgCtrln bs = 0 || decide (4096 < imgCtrln bs)) 12 ++
  at_ (decide (5 < lv % 8 ∨ 5 < lv / 8 % 8 ∨ 5 < lv / 64 % 8)) 14 ++ reservedAt bs 14 2 0x1FF ++
  at_ (decide (8 < imgStores bs)) 18 ++ reservedAt bs 19 1 0 ++ at_ (decide (256 < imgNblk bs)) 20 ++ reservedAt bs 22 2 0 ++
  reservedAt bs 24 8 (if imgNblk bs = 0 then 0 else 0xFFFFFFFFFFFE0) ++ at_ (byteNat bs 32 4 ≠ imgSize bs) 32 ++ at_ (decide (256 < imgStreams bs)) 40 ++
  reservedAt bs 42 22 0 ++ reservedAt bs 224 32 0

/-- A stream-table entry that breaks R483: reserved bits, order, pages and ports, and ports named before. -/
def streamFault (bs : List Byte) (k : Nat) : Bool :=
  let e := byteNat bs (imgStreamOff bs + 4 * k) 4
  let before := (List.range k).map fun j => byteNat bs (imgStreamOff bs + 4 * j) 4
  let has := fun (page port : Nat) => (imgTable bs).any fun t => t.page = page && t.ports.testBit port
  decide (2 ^ 16 ≤ e) || before.any (fun d => decide (e % 256 ≤ d % 256)) || !has (bits e 0 6) (4 + bits e 6 2) ||
  !has (bits e 8 6) (bits e 14 2) || before.any fun d => bits d 8 8 = bits e 8 8

/-- The offsets in the tables that break R129, R130 or R483. -/
def tableFaults (bs : List Byte) : List Nat :=
  let pages := imgPages bs
  let stores := imgStores bs
  let streams := imgStreams bs
  (List.range pages).flatMap (fun k =>
    reservedAt bs (256 + 8 * k) 8 0xFFFFF03F ++
    (if 0 < k ∧ imgPageEntry bs k % 64 ≤ imgPageEntry bs (k - 1) % 64 then [256 + 8 * k] else [])) ++
  reservedAt bs (256 + 8 * pages) (pad32 (8 * pages) - 8 * pages) 0 ++
  (List.range stores).flatMap (fun k => reservedAt bs (imgStoreOff bs + 8 * k) 8 0xFFFFFFFFFFFC0) ++
  reservedAt bs (imgStoreOff bs + 8 * stores) (pad32 (8 * stores) - 8 * stores) 0 ++
  (List.range streams).flatMap (fun k => if streamFault bs k then [imgStreamOff bs + 4 * k] else []) ++
  reservedAt bs (imgStreamOff bs + 4 * streams) (pad32 (4 * streams) - 4 * streams) 0

/-- The header check alone: the size of the rest is known only once it passes. -/
def checkHeader (bs : List Byte) : Bad := (leastOf (headerFaults bs)).map fun o => (0x60, o)

/-- A block-table entry that breaks R235. -/
def blockFault (e : List Byte) : Bool :=
  !(reservedAt e 0 8 0xFFFFFFFFFFFC0).isEmpty || !(reservedAt e 8 8 0xFFFFFFFFFFFC0).isEmpty ||
  decide (byteNat e 16 1 < 4 ∨ 16 < byteNat e 16 1) || !(reservedAt e 17 3 0).isEmpty || !(reservedAt e 24 8 0).isEmpty

/-- The block table of a record-mode graph (R235). -/
def checkBlocks (tab : List Byte) (n : Nat) : Bad :=
  ((List.range n).find? fun b => blockFault ((tab.drop (32 * b)).take 32)).map fun b => (0x60, 32 * b)

/-- One byte of the CRC-32 of IEEE 802.3 (R128). -/
def crcByte (crc : Nat) (b : Byte) : Nat :=
  (List.range 8).foldl (fun c _ => if c % 2 = 1 then (c / 2) ^^^ 0xEDB88320 else c / 2) (crc ^^^ b.toNat)
/-- The CRC of an image, its own field read as zero (R128). -/
def imgCrc (bs : List Byte) : Nat :=
  (bs.take 36 ++ [0, 0, 0, 0] ++ bs.drop 40).foldl crcByte 0xFFFFFFFF ^^^ 0xFFFFFFFF

/-- Step 1 after the header. -/
def checkTables (bs blocks : List Byte) : Bad :=
  firstBad [(leastOf (tableFaults bs)).map fun o => (0x60, o), checkBlocks blocks (imgNblk bs),
    badIf (imgCrc bs ≠ byteNat bs 36 4) 0x61 36]

/-! ### Frames by address (R131) -/

/-- The frame address. -/
def frameAddr (f : FrameBits) : Nat := fld f 240 16
/-- LAYOUT. -/
def frameLayout (f : FrameBits) : Nat := fld f 254 2
/-- PAGE of a site's frame, PART of a generator's. -/
def framePage (f : FrameBits) : Nat := fld f 248 6
/-- SITE. -/
def frameSite (f : FrameBits) : Nat := fld f 244 4
/-- GEN. -/
def frameGen (f : FrameBits) : Nat := fld f 240 8
/-- The address of a site's frame. -/
def siteAddr (layout page site : Nat) : Nat := layout * 2 ^ 14 + page * 2 ^ 8 + site * 2 ^ 4
/-- The address of a generator's part. -/
def partAddr (part gen : Nat) : Nat := 3 * 2 ^ 14 + part * 2 ^ 8 + gen

/-- What the checks of frames look at. -/
structure Image where
  table   : List PageInfo
  nframes : List Nat
  streams : List StreamInfo
  frames  : List FrameBits
  deriving DecidableEq, Repr

/-- The image in some bytes. -/
def imageOf (bs : List Byte) : Image :=
  ⟨imgTable bs, (List.range (imgPages bs)).map fun k => bits (imgPageEntry bs k) 24 8, imgStreamTable bs, imgFrameList bs⟩

/-- A frame by its address. -/
def Image.frame (m : Image) (a : Nat) : Option FrameBits := m.frames.find? fun f => frameAddr f = a
/-- A site's frame. -/
def Image.site (m : Image) (layout page site : Nat) : Option FrameBits := m.frame (siteAddr layout page site)
/-- A part of a generator. -/
def Image.part (m : Image) (part gen : Nat) : Option FrameBits := m.frame (partAddr part gen)
/-- The index of the frame at an address; 0xFFFF_FFFF if it is missing. -/
def Image.index (m : Image) (a : Nat) : Nat := (m.frames.findIdx? fun f => frameAddr f = a).getD 0xFFFFFFFF
/-- TVAL of a frame, by its address (R147). -/
def Image.tval (m : Image) (a : Nat) : Nat := a * 2 ^ 32 + m.index a
/-- Whether a page is in the page table. -/
def Image.hasPage (m : Image) (p : Nat) : Bool := m.table.any fun t => t.page = p
/-- PORTS of a page. -/
def Image.ports (m : Image) (p : Nat) : Nat := ((m.table.find? fun t => t.page = p).map (·.ports)).getD 0
/-- TVAL for a whole page: its last frame; index 0xFFFF_FFFF, address 0, if it has none (R147). -/
def Image.lastTval (m : Image) (p : Nat) : Nat :=
  match (m.frames.zipIdx.filter fun (f : FrameBits × Nat) => frameLayout f.1 < 3 && framePage f.1 = p).getLast? with
  | some f => frameAddr f.1 * 2 ^ 32 + f.2
  | none => 0xFFFFFFFF
/-- The generators an image names, ascending (R131). -/
def Image.gens (m : Image) : List Nat :=
  (List.range 256).filter fun n => m.frames.any fun f => frameLayout f = 3 && frameGen f = n
/-- A generator of an image, as its parts. -/
def Image.gen (m : Image) (n : Nat) : Gen :=
  { Gen.none with parts := ([0, 1, 2, 3] : List Nat).foldl (fun ps p => match m.part p n with
      | some f => SMap.set 0 ps p f
      | none => ps) [] }

/-! ### Step 2: each frame (R131-R142, R147) -/

/-- The kinds of sites (R83). -/
inductive SiteKind where
  | compute | matrix | fibre | memory | port
  deriving DecidableEq, Repr

/-- The kind of a site index (R83). -/
def siteKind (i : Nat) : SiteKind :=
  match i with
  | 2 => .memory | 13 => .memory | 5 => .matrix | 7 => .fibre | 8 => .fibre | 15 => .port | _ => .compute

/-- The kind of site that a compute code runs on; none is ill (R144). -/
def computeKind (op : Nat) : Option SiteKind :=
  if (0x01 ≤ op ∧ op ≤ 0x0E) ∨ (0x10 ≤ op ∧ op ≤ 0x1B) ∨ (0x20 ≤ op ∧ op ≤ 0x24) ∨ (0x28 ≤ op ∧ op ≤ 0x2D) ∨
     (0x30 ≤ op ∧ op ≤ 0x34) ∨ (0x38 ≤ op ∧ op ≤ 0x3C) then some .compute
  else if 0x40 ≤ op ∧ op ≤ 0x44 then some .matrix
  else if 0x50 ≤ op ∧ op ≤ 0x58 then some .fibre
  else none

/-- Whether a code is ill in its layout (R144, R145). -/
def illCode (layout op : Nat) : Bool :=
  match layout with
  | 0 => (computeKind op).isNone
  | 1 => !decide ((1 ≤ op ∧ op ≤ 4) ∨ (8 ≤ op ∧ op ≤ 12))
  | 2 => decide (9 < op)
  | _ => !decide ((1 ≤ op ∧ op ≤ 6) ∨ (8 ≤ op ∧ op ≤ 13) ∨ (0x10 ≤ op ∧ op ≤ 0x15))

/-- A disabled face slot that is not zero (R133). -/
def faceReserved (f : FrameBits) : Bool := ([0, 1] : List Nat).any fun k =>
  let slot := faceOf f / 2 ^ (10 * k) % 2 ^ 10
  slot < 512 && slot ≠ 0
/-- An event code of 6 or 7 (R133). -/
def faceField (f : FrameBits) : Bool := ([0, 1] : List Nat).any fun k =>
  let slot := faceOf f / 2 ^ (10 * k) % 2 ^ 10
  512 ≤ slot && 6 ≤ slot % 8

/-- The OPX bits an opcode lists (R170, R208, R364). -/
def opxMask (op : Nat) : Nat :=
  match op with
  | 0x0E => 3 | 0x18 => 1 | 0x20 => 15 | 0x22 => 3 | 0x23 => 3 | 0x24 => 63 | 0x2B => 0xFFFF | 0x2D => 63
  | 0x30 => 7 | 0x33 => 255 | 0x34 => 1 | 0x3B => 63
  | 0x40 => 0xFE00 | 0x41 => 0xFE00 | 0x44 => 0xFE00
  | 0x50 => 7 | 0x51 => 7 | 0x52 => 3 | 0x53 => 3 | 0x56 => 7 | 0x57 => 3 | 0x58 => 15
  | _ => 0

/-- Whether the listed OPX fields are in their ranges (R170, R208). -/
def opxOk (op : Nat) (m : BitVec 24) : Bool :=
  match op with
  | 0x0E => opx m 0 2 ≠ 3
  | 0x22 => opx m 0 2 ≠ 3
  | 0x23 => opx m 0 2 ≠ 3
  | 0x24 => opx m 0 5 ≠ 16
  | 0x2B => decide (opx m 0 3 ≤ 5)
  | 0x2D => decide (1 ≤ opx m 0 6 ∧ opx m 0 6 ≤ 32)
  | 0x33 => decide (1 ≤ opx m 0 7 ∧ opx m 0 7 ≤ 64)
  | 0x3B => opx m 4 2 ≠ 3 && decide (opx m 0 4 ≤ 12) && !(opx m 4 2 = 0 && opx m 0 4 = 0)
  | 0x50 => decide (opx m 0 3 ≤ 5)
  | 0x51 => decide (opx m 0 3 ≤ 5)
  | 0x52 => !(opx m 0 1 = 0 && opx m 1 1 = 1)
  | 0x53 => !(opx m 0 1 = 0 && opx m 1 1 = 1)
  | 0x56 => decide (opx m 0 3 ≤ 5)
  | 0x57 => opx m 0 2 ≠ 3
  | 0x58 => decide (opx m 0 3 ≤ 5)
  | _ => true

/-- The opcodes that use RND (R174, R176, R181, R182, R207). -/
def usesRnd (op : Nat) : Bool :=
  ([0x01, 0x02, 0x03, 0x04, 0x07, 0x08, 0x09, 0x0A, 0x0B, 0x0E, 0x22, 0x23, 0x28, 0x31, 0x57] : List Nat).contains op
/-- The opcodes that use SAT (R180, R182, R183). -/
def usesSat (op : Nat) : Bool := ([0x10, 0x11, 0x12, 0x13, 0x17, 0x2A, 0x2B] : List Nat).contains op
/-- The values of COND an opcode takes (R175, R180). -/
def condOk (op c : Nat) : Bool := if op = 0x0C then true else if op = 0x19 then decide (c ≤ 5) else c = 0

/-- The operands a compute frame reads (R136, R174-R191, R207, R364). -/
def frameReads (f : FrameBits) : List Nat :=
  let op := opcOf f
  match computeKind op with
  | some .fibre => fibrePorts op f
  | some .matrix => if op = 0x44 then [0, 2] else if (modOf f).getLsbD 9 then [2] else []
  | _ => cellReads op
/-- The operands that it reads from ports (R136). -/
def framePorts (f : FrameBits) : List Nat := (frameReads f).filter fun i => srcOf f i = 0

/-- A compute frame (R134-R136, R144). -/
def checkCompute (f : FrameBits) (tv : Nat) : Bad :=
  let op := opcOf f
  let m := modOf f
  let kind := computeKind op
  let mx := kind = some .matrix
  let srcs := ([0, 1, 2] : List Nat).map fun i => (i, srcOf f i)
  let reserved := fld f 240 4 ≠ 0 || faceReserved f || fld f 40 134 ≠ 0 || opx m 16 2 ≠ 0 ||
    opx m 0 16 &&& (0xFFFF - opxMask op) ≠ 0 || (mx && fld f 16 24 ≠ 0)
  let field := rlvlOf f = 7 || faceField f || srcs.any (fun (p : Nat × Nat) => p.2 = 3) ||
    srcs.any (fun (p : Nat × Nat) => p.2 ≠ 0 && !(frameReads f).contains p.1) ||
    (!usesRnd op && opx m 22 2 ≠ 0) || (!usesSat op && opx m 21 1 ≠ 0) || !condOk op (opx m 18 3) || !opxOk op m ||
    ((op = 0x2C || op = 0x2D) && srcOf f 1 = 0) ||
    (kind ≠ some .compute && srcs.any fun (p : Nat × Nat) => p.2 ≠ 0) || op = 0x42 || op = 0x43 ||
    ((op = 0x40 || op = 0x41) && fld f 0 16 = 0) || (op = 0x44 && (fld f 0 16 ≠ 0 || opx m 9 1 ≠ 0))
  firstBad [badIf (illCode 0 op) 0x65 tv, badIf (kind ≠ some (siteKind (frameSite f))) 0x67 tv, badIf reserved 0x68 tv,
    badIf field 0x72 tv]

/-- The IMM bits a tile opcode uses (R303). -/
def tileImmMask (op : Nat) : Nat := if op = 3 then 2 else if op = 4 then 0 else if op = 8 then 5 else 1

/-- A tile frame (R137, R303, R307, R308). -/
def checkTile (m : Image) (f : FrameBits) (tv : Nat) : Bad :=
  let op := opcOf f
  let buf := fld f 216 12
  let reserved := fld f 240 4 ≠ 0 || faceReserved f || fld f 197 4 ≠ 0 || fld f 40 134 ≠ 0 ||
    fld f 0 40 &&& (2 ^ 40 - 1 - tileImmMask op) ≠ 0
  let field := rlvlOf f = 7 || faceField f || tileDepth f = 0 || decide (8 < tileDepth f) || buf = 0 || decide (1024 < buf) ||
    decide (1024 < fld f 206 10 + tileDepth f * buf) || (!tileCen f && fld f 201 4 ≠ 0) ||
    (tileCen f && (m.site 0 (framePage f) (fld f 201 4)).isNone) || (op = 4 && decide (buf < 2)) ||
    (op = 8 && fld f 0 1 = 1) || (op = 9 && fld f 0 1 = 0)
  firstBad [badIf (illCode 1 op) 0x65 tv, badIf (siteKind (frameSite f) ≠ .memory) 0x67 tv, badIf reserved 0x68 tv,
    badIf field 0x72 tv]

/-- The RMOD bits a router opcode lists (R196). -/
def rmodMask (op : Nat) : Nat :=
  match op with
  | 1 => 1 | 2 => 0x3F00 | 3 => 0x3F00 | 5 => 0xFF | 6 => 7 | 9 => 1 | _ => 0

/-- A switch frame (R138, R196). -/
def checkSwitch (f : FrameBits) (tv : Nat) : Bad :=
  let op := opcOf f
  let m := (modOf f).toNat
  let reserved := fld f 240 4 ≠ 0 || fld f 197 11 ≠ 0 || fld f 0 102 ≠ 0 || m &&& (2 ^ 24 - 1 - rmodMask op) ≠ 0 ||
    (if op = 0 then rlvlOf f ≠ 0 || faceOf f ≠ 0 else faceReserved f) ||
    ((op = 2 || op = 3) && bits m 13 1 = 0 && bits m 8 5 ≠ 0)
  let field := op ≠ 0 && (rlvlOf f = 7 || faceField f || (op = 5 && bits m 0 8 = 0) || (op = 6 && decide (6 ≤ bits m 0 3)))
  firstBad [badIf (illCode 2 op) 0x65 tv, badIf reserved 0x68 tv, badIf field 0x72 tv]

/-- IEN, OEN (2: 1, but 0 with TDST), the classes, the nests that a generator opcode requires (R310, R345, R386). -/
def genNeeds (op : Nat) : Nat × Nat × List Nat × Nat × Nat :=
  match op with
  | 0x01 => (0, 2, [0, 1], 0, 6)
  | 0x02 => (1, 0, [1], 0, 6)
  | 0x03 => (1, 1, [1], 1, 1)
  | 0x04 => (1, 0, [1], 1, 1)
  | 0x05 => (1, 2, [1], 2, 2)
  | 0x06 => (1, 1, [1], 2, 2)
  | 0x08 => (1, 1, [2], 1, 1)
  | 0x09 => (1, 0, [2], 1, 1)
  | 0x0A => (1, 1, [2], 1, 1)
  | 0x0B => (1, 0, [2], 0, 0)
  | 0x0C => (1, 1, [1], 0, 0)
  | 0x0D => (1, 0, [1], 0, 0)
  | 0x11 => (1, 1, [1, 2], 0, 0)
  | 0x13 => (1, 0, [1, 2], 0, 0)
  | _ => (1, 1, [1], 0, 0)

/-- Whether IMM, FMT and BASE are as the opcode requires (R310-R321, R345, R386). A bit of IMM that the opcode does not define
fails here, as a field that R310 requires to be zero, with 0x72 and not as a reserved bit (DESIGN CHOICE, log entry 74). -/
def genImmOk (f : FrameBits) : Bool :=
  let op := opcOf f
  let imm := fld f 0 40
  let fmt := gFmt f
  if op = 0x01 ∨ op = 0x05 then
    if imm.testBit 10 then imm < 2 ^ 11 && (gTsite f = 2 || gTsite f = 13) else imm = 0
  else if op = 0x06 then imm ≤ 1
  else if op = 0x0A then imm < 8 && imm ≠ 2 && imm ≠ 7 && (fmt = 8 || fmt = 0x0D)
  else if op = 0x0C then (imm % 16 = 0 && imm = 0) || (imm % 16 = 1 && decide (imm < 2 ^ 10))
  else if op = 0x0D then imm = 0 && fmt = 0x0C
  else if op = 0x10 then imm < 64 && fmt = 0 && !(imm.testBit 5 && !imm.testBit 4)
  else if op = 0x11 then imm < 32 && fmt = 0 && gBase f = 0
  else if op = 0x12 ∨ op = 0x13 then imm < 16 && fmt = 0 && gBase f = 0
  else if op = 0x14 then imm < 2 && fmt = 0x0D && gBase f = 0
  else if op = 0x15 then 1 ≤ imm && imm ≤ 4096 && fmt = 0x0D && gBase f % 64 = 0
  else imm = 0

/-- Part 0 of a generator: its fields and, among chained ones, a place in its chain that no earlier one has (R141, R282,
R310). -/
def checkPart0 (m : Image) (f : FrameBits) (tv : Nat) : Bad :=
  let op := opcOf f
  let cls := gClass f
  let need := genNeeds op
  let reserved := faceReserved f || fld f 40 45 ≠ 0 || (!gIen f && fld f 209 8 ≠ 0) || (!gOen f && fld f 200 8 ≠ 0)
  let twin := (List.range (frameGen f)).any fun n => match m.part 0 n with
    | some d => gClass d = 2 && gChain d = gChain f && gSeq d = gSeq f
    | none => false
  let field := rlvlOf f = 7 || faceField f || cls = 3 || !need.2.2.1.contains cls ||
    decide (gNest f < need.2.2.2.1 ∨ need.2.2.2.2 < gNest f) || gNest f = 7 || fmtOf (gFmt f) = .bad || !genImmOk f ||
    (if cls = 2 then decide (gSeq f = 0 ∨ gSeq f = 0xFFF) || twin else gChain f ≠ 0 || gSeq f ≠ 0)
  firstBad [badIf ((gIen f && !m.hasPage (gIpage f)) || (gOen f && !m.hasPage (gOpage f)) ||
      (gTdst f && !m.hasPage (gTpage f))) 0x62 tv,
    badIf (illCode 3 op) 0x65 tv, badIf reserved 0x68 tv, badIf field 0x72 tv]

/-- Parts 1 and 2: the levels of the nest (R142). -/
def checkNest (f0 f : FrameBits) (part tv : Nat) : Bad :=
  let lv := fun (i : Nat) => (3 * (part - 1) + i, fld f (208 - 80 * i) 32, fld f (160 - 80 * i) 80)
  let all := ([0, 1, 2] : List Nat).map lv
  firstBad [badIf (all.any fun (p : Nat × Nat × Nat) => decide (gNest f0 ≤ p.1) && p.2.2 ≠ 0) 0x68 tv,
    badIf (all.any fun (p : Nat × Nat × Nat) => decide (p.1 < gNest f0) && p.2.1 = 0) 0x72 tv]

/-- Part 3 (R275, R318, R321). A page that it names and the image lacks is 0x62 before anything else (R147, log entry 40). -/
def checkPart3 (m : Image) (f0 f : FrameBits) (tv : Nat) : Bad :=
  let op := opcOf f0
  let w := fld f 226 14
  let h := fld f 212 14
  if op = 0x02 then
    firstBad [badIf (!m.hasPage (fld f 234 6) || !m.hasPage (fld f 226 6)) 0x62 tv, badIf (fld f 0 222 ≠ 0) 0x68 tv]
  else if op = 0x06 then
    let hot := m.site 1 (fld f 233 6) (fld f 229 4)
    firstBad [badIf (f.getLsbD 239 && !m.hasPage (fld f 233 6)) 0x62 tv, badIf (fld f 0 229 ≠ 0) 0x68 tv,
      badIf (f.getLsbD 239 && !(match hot with | some t => tileDepth t = 2 | none => false)) 0x72 tv]
  else if op = 0x0D then
    firstBad [badIf (fld f 0 160 ≠ 0) 0x68 tv,
      badIf (decide (w < 8 ∨ 16376 < w ∨ w % 8 ≠ 0 ∨ h < 8 ∨ 16376 < h ∨ h % 16 ≠ 0 ∨ 2 * fld f 160 52 < 3 * w * h)) 0x72 tv]
  else none

/-- A frame of an image, with the address before it (R146, R147). held says which pages of the image the graph holds that
it is loaded into (R238). -/
def checkFrame (m : Image) (held : Nat → Bool) (prev : Option Nat) (f : FrameBits) (i : Nat) : Bad :=
  let a := frameAddr f
  let tv := a * 2 ^ 32 + i
  let order := badIf (match prev with | some p => decide (a ≤ p) | none => false) 0x6E tv
  let rest := match frameLayout f with
    | 0 => firstBad [badIf (!m.hasPage (framePage f) || !held (framePage f)) 0x62 tv, checkCompute f tv]
    | 1 => firstBad [badIf (!m.hasPage (framePage f) || !held (framePage f)) 0x62 tv, checkTile m f tv]
    | 2 => firstBad [badIf (!m.hasPage (framePage f) || !held (framePage f)) 0x62 tv, checkSwitch f tv]
    | _ => match framePage f, m.part 0 (frameGen f) with
      | 0, _ => checkPart0 m f tv
      | 1, some d => checkNest d f 1 tv
      | 2, some d => checkNest d f 2 tv
      | 3, some d => checkPart3 m d f tv
      | p, _ => badIf (decide (3 < p)) 0x62 tv
  firstBad [order, rest]

/-- Every frame in image order. -/
def checkFrames (m : Image) (held : Nat → Bool) : Option Nat → Nat → List FrameBits → Bad
  | _, _, [] => none
  | prev, i, f :: r => match checkFrame m held prev f i with
    | some b => some b
    | none => checkFrames m held (some (frameAddr f)) (i + 1) r

/-! ### Step 3: each page (R140, R147, R358, R364) -/

/-- The selector of a destination of a switch frame (R138). -/
def routeOf (f : FrameBits) (d : Nat) : Nat := fld f (102 + 4 * d) 4
/-- The inputs and outputs of a switch frame's element, as ports and outputs (R199). -/
def switchIns (f : FrameBits) : List Nat := if opcOf f = 0 then [] else routerIns (opcOf f)
def switchOuts (f : FrameBits) : List Nat :=
  if opcOf f = 0 || (opcOf f = 9 && !(modOf f).getLsbD 0) then [] else routerOutsOf (opcOf f) f
/-- Whether direction d of a track leaves the region at a site (R140). -/
def offEdge (site d : Nat) : Bool := (neighbour ⟨0, 0, Fin.ofNat 16 site, 0⟩ d).isNone

/-- The ports of the element at a site (R140). -/
def Image.elemPorts (m : Image) (page site : Nat) : List Nat :=
  match m.site 0 page site, m.site 1 page site with
  | some f, _ => framePorts f
  | none, some f => tilePorts (opcOf f)
  | none, none => []

/-- Whether the routes of a switch frame keep to R140 and R199. -/
def routesOk (m : Image) (f : FrameBits) : Bool :=
  let page := framePage f
  let site := frameSite f
  let elem := (m.site 0 page site).isSome || (m.site 1 page site).isSome
  let ports := m.elemPorts page site
  ((List.range 18).all fun d =>
    let c := routeOf f d
    c = 0 ||
      ((if d < 8 then !offEdge site d
        else if d < 11 then ports.contains (d - 8)
        else if d < 14 then (switchIns f).contains (d - 8)
        else site = 15) &&
       (if c ≤ 8 then !offEdge site (c - 1)
        else if c = 9 then elem
        else if c ≤ 11 then (switchOuts f).contains (c - 9)
        else site = 15))) &&
  (switchOuts f).all fun o => (List.range 18).any fun d => routeOf f d = 9 + o

/-- Bytes of a dense operand (R359). -/
def denseBytes (c : Nat) : Nat :=
  match c with
  | 0 => 2048 | 1 => 2048 | 2 => 1024 | 3 => 1024 | 4 => 512 | 5 => 1056 | 6 => 1056 | _ => 544

/-- Whether one operand tile suits a matrix frame (R358, R364). -/
def operandOk (f : FrameBits) (code : Nat) (t : Option FrameBits) : Bool :=
  match t with
  | none => false
  | some t =>
    let op := opcOf f
    let need := if op = 0x40 then denseBytes code else if op = 0x41 then (if mxScaled code then 160 else 128) else 0
    !(opcOf t = 3 && tileDrains t) && opcOf t ≠ 4 && !(tileCen t && fld t 201 4 = 5) && decide (need ≤ tileBuf t)

/-- A page: frame count, matrix tiles, routes, inputs, clonability (R146, R147, R234, R358). -/
def checkPage (m : Image) (t : PageInfo) (nframes : Nat) : Bad :=
  let p := t.page
  let count := (m.frames.filter fun f => frameLayout f < 3 && framePage f = p).length
  let sites := List.range 16
  let mx := match m.site 0 p 5 with
    | some f => badIf (!operandOk f (opx (modOf f) 13 3) (m.site 1 p 2) || !operandOk f (opx (modOf f) 10 3) (m.site 1 p 13))
        0x72 (m.tval (siteAddr 0 p 5))
    | none => none
  let routes := firstBad (sites.map fun i => match m.site 2 p i with
    | some f => badIf (!routesOk m f) 0x6F (m.tval (siteAddr 2 p i))
    | none => none)
  let inputs := firstBad (sites.map fun i => match m.site 0 p i with
    | some f => badIf (siteKind i ≠ .matrix && (framePorts f).isEmpty) 0x73 (m.tval (siteAddr 0 p i))
    | none => none)
  let one := fun (n : Nat) => n = 1 ∨ n = 2 ∨ n = 4 ∨ n = 8
  let clon := t.clon && !(decide (one (t.ports % 16) ∧ one (t.ports / 16)) && t.live = 0 && !t.inter)
  firstBad [badIf (count ≠ nframes) 0x62 (m.lastTval p), mx, routes, inputs, badIf clon 0x75 p]

/-! ### Step 4: the graph (R147) -/

/-- A port of a page: whether it is an out port, the page, the port. -/
abbrev PortName := Bool × Nat × Nat
/-- The bit of PORTS that a port has (R129). -/
def PortName.bit (p : PortName) : Nat := if p.1 then 4 + p.2.2 else p.2.2

/-- The ports that a generator binds (R141, R275). -/
def Gen.portNames (q : Gen) : List PortName :=
  (if gIen q.f then [(true, gIpage q.f, gIport q.f)] else []) ++
  (if gOen q.f then [(false, gOpage q.f, gOport q.f)] else []) ++
  (match q.scaleFrom with | some (p, n) => if q.parts.get 0 3 = 0 then [] else [(true, p, n)] | .none => [])

/-- The ports that the stream table binds (R483). -/
def Image.entryPorts (m : Image) : List PortName :=
  m.streams.flatMap fun r => [(true, r.opage, r.oport), (false, r.ipage, r.iport)]

/-- The bits of PORTS that the routes at a page's cuff use. -/
def Image.cuffBits (m : Image) (p : Nat) : List Nat :=
  match m.site 2 p 15 with
  | none => []
  | some f => (List.range 8).filter fun b =>
      if b < 4 then (List.range 18).any fun d => routeOf f d = 12 + b else routeOf f (14 + (b - 4)) ≠ 0

/-- Generators that bind a port bound already, in logical order. -/
def boundTwice (m : Image) : List PortName → List Nat → Bad
  | _, [] => none
  | seen, n :: r =>
    let ps := (m.gen n).portNames
    if ps.any seen.contains || ps.eraseDups.length ≠ ps.length then some (0x71, m.tval (partAddr 0 n))
    else boundTwice m (seen ++ ps) r

/-- The streams (R147 0x71). In a record-mode graph a port that nothing binds is the block dispatcher's. -/
def checkStreams (m : Image) (rec : Bool) : Bad :=
  let gens := m.gens.filter fun n => (m.part 0 n).isSome
  let bound := m.entryPorts ++ gens.flatMap fun n => (m.gen n).portNames
  let routed := firstBad (m.table.map fun t =>
    let used := m.cuffBits t.page
    firstBad [badIf (used.any fun b => !t.ports.testBit b) 0x71 (m.tval (siteAddr 2 t.page 15)),
      badIf ((List.range 8).any fun b => t.ports.testBit b && !used.contains b) 0x71 (m.lastTval t.page)])
  let unbound := firstBad (m.table.map fun t => badIf (!rec && (List.range 8).any fun b =>
    t.ports.testBit b && !bound.any fun p => p.2.1 = t.page && PortName.bit p = b) 0x71 (m.lastTval t.page))
  let fit := fun (n : Nat) =>
    let q := m.gen n
    let need := genNeeds (opcOf q.f)
    let oen := if need.2.1 = 2 then !gTdst q.f else need.2.1 = 1
    q.portNames.all (fun p => (m.ports p.2.1).testBit (PortName.bit p)) && gIen q.f = (need.1 = 1 : Bool) && gOen q.f = oen &&
    (!gTdst q.f || (m.site 1 (gTpage q.f) (gTsite q.f)).isSome)
  firstBad [routed, unbound, boundTwice m m.entryPorts gens,
    firstBad (gens.map fun n => badIf (!fit n) 0x71 (m.tval (partAddr 0 n)))]

/-- The parts of a generator (R142, R147 0x74, R275, R310, R318). SCAT and CHST with an MX format are rejected with part 3 and without
it: R310 excludes it for them and R275 requires it (log entry 81). -/
def checkParts (m : Image) (n : Nat) : Bad :=
  let has := fun (p : Nat) => (m.part p n).isSome
  match m.part 0 n with
  | none => some (0x74, m.tval (partAddr 0 n))
  | some f =>
    let op := opcOf f
    let mx := (fmtOf (gFmt f)).isMx
    let p3 := op = 0x0D || (op = 0x02 && mx) || (op = 0x06 && (m.part 3 n).any (·.getLsbD 239))
    let need := fun (p : Nat) => if p = 1 then decide (1 ≤ gNest f) else if p = 2 then decide (4 ≤ gNest f) else p3
    firstBad ((([1, 2, 3] : List Nat).map fun p => badIf (has p ≠ need p) 0x74 (m.tval (partAddr p n))) ++
      [badIf ((op = 0x04 || op = 0x09) && mx) 0x74 (m.tval (partAddr 3 n))])

/-- The lowest and the highest offset, in the units of STRIDE, that a nest reaches. -/
def Gen.extent (q : Gen) : Int × Int :=
  (List.range (gNest q.f)).foldl (fun (p : Int × Int) l =>
    let t := ((q.count l : Int) - 1) * q.stride l
    (p.1 + min t 0, p.2 + max t 0)) (0, 0)

/-- Whether every byte that an affine nest can touch lies in the virtual range (R147 0x6B, R269-R271, R311). -/
def affineOk (q : Gen) : Bool :=
  let (lo, hi) := q.extent
  let k := q.fmt
  let (a, b) : Int × Int := match k with
    | .sd d => (lo / 32 * (4 + 12 * d), hi / 32 * (4 + 12 * d) + (3 + 12 * d))
    | _ =>
      if k.isMx then (lo / 256 * k.superBytes, hi / 256 * k.superBytes + (k.superBytes - 1))
      else if k.byElement then ((k.place lo).1, (k.place hi).1 + (spanBytes (k.place hi).2 k.width - 1 : Nat))
      else (lo, hi + (k.width / 8 - 1 : Nat))
  decide (0 ≤ (gBase q.f : Int) + a ∧ (gBase q.f : Int) + b < 2 ^ 52)

/-- A place that tokens pass in a graph: a source of a site (code 0-15), an input port of a site at which a search ends
(16 + destination), or a generator. -/
def nodeKey (page site code : Nat) : Nat := page * 1024 + site * 64 + code
def genKey (n : Nat) : Nat := 2 ^ 16 + n

/-- The places after a place, whatever input of an element they enter by, with the tokens held on the way (R92, R147, R205, R228). Router elements for which `ends`
holds are not passed. -/
def Image.edges (m : Image) (ends : FrameBits → Bool) (k : Nat) : List (Nat × Nat) :=
  let toIn := fun (p n : Nat) => (8, nodeKey p 15 (12 + n))
  if 2 ^ 16 ≤ k then
    let q := m.gen (k - 2 ^ 16)
    if gOen q.f then [toIn (gOpage q.f) (gOport q.f)] else []
  else
    let page := k / 1024
    let site := k / 64 % 16
    let src := k % 64
    match m.site 2 page site with
    | none => []
    | some f =>
      let ds := (List.range 18).filter fun d => routeOf f d = src
      if src = 0 ∨ 16 ≤ src then [] else
      ds.flatMap fun d =>
        let st := if src ≤ 8 ∧ ds = [d] then 0 else 2
        if d < 8 then
          match neighbour ⟨0, 0, Fin.ofNat 16 site, 0⟩ d with
          | some (e, t) => [(2, nodeKey page e.site.val (1 + t))]
          | none => []
        else if d < 11 then
          if (m.elemPorts page site).contains (d - 8) then [(st + 1, nodeKey page site 9)] else []
        else if d < 14 then
          if ends f then [(st, nodeKey page site (16 + d))]
          else (switchOuts f).map fun o => (st + 1, nodeKey page site (9 + o))
        else
          (m.streams.filter fun r => r.opage = page && r.oport = d - 14).map (fun r => toIn r.ipage r.iport) ++
          (m.gens.filter fun n => (m.gen n).portNames.contains (true, page, d - 14)).map fun n => (8, genKey n)

/-- The least holdings from a start to every place: a place on the frontier that improves is entered again. -/
def Image.search (m : Image) (ends : FrameBits → Bool) : Nat → List (Nat × Nat) → SMap Nat → SMap Nat
  | 0, _, best => best
  | _, [], best => best
  | fuel + 1, front, best =>
    let (best1, fresh) := front.foldl (fun (a : SMap Nat × List (Nat × Nat)) (p : Nat × Nat) =>
      let old := a.1.get 0 p.2
      if old = 0 || decide (p.1 < old) then (a.1.set 0 p.2 p.1, p :: a.2) else a) (best, [])
    let next := fresh.flatMap fun (p : Nat × Nat) => (m.edges ends p.2).map fun (e : Nat × Nat) => (p.1 + e.1, e.2)
    m.search ends fuel next best1

/-- A CARRY's limit against the buffering of its cycle (R147 0x69, R205): of several ways back to Q the one that holds least, which
may pass control inputs, and a generator on it counts 8 for each of its two streams (DESIGN CHOICE, log entry 74). -/
def carryBad (m : Image) (f : FrameBits) : Bool :=
  let p := framePage f
  let i := frameSite f
  let lim := (modOf f).toNat % 256
  let best := (m.search (fun d => frameAddr d = frameAddr f) 4096 [(1, nodeKey p i 10)] []).get 0 (nodeKey p i (16 + 12))
  lim = 0 || (best ≠ 0 && decide (best ≤ lim))

/-- The delay FIFO of a block-scale branch (R147 0x6A, R275). -/
def fifoBad (m : Image) (q : Gen) : Bool :=
  let page := fld q.p3 226 6
  match m.site 1 page (fld q.p3 222 4) with
  | some t => opcOf t ≠ 4 || tileDepth t ≠ 2 || decide (fld t 216 12 < 2) || page ≠ gIpage q.f
  | none => true

/-- The generators that an output of a STEER reaches before a MERGE joins its branches (R147 0x70, log entry 40). -/
def branchGens (m : Image) (f : FrameBits) (o : Nat) : List Nat :=
  let ends := fun (d : FrameBits) => opcOf d = 3 || frameAddr d = frameAddr f
  let best := m.search ends 4096 [(1, nodeKey (framePage f) (frameSite f) (9 + o))] []
  m.gens.filter fun n => best.get 0 (genKey n) ≠ 0

/-- A STEER that splits a chain, one branch of which has no access of it: an access outside the other branch names, or by the
wildcard may name, an access in that branch as its successor (R147 0x70, R282, log entry 40). -/
def steerBad (m : Image) (f : FrameBits) : Bool :=
  let b1 := branchGens m f 1
  let b2 := branchGens m f 2
  let fr := fun (n : Nat) => (m.gen n).f
  let chained := m.gens.filter fun n => gClass (fr n) = 2
  let splits := fun (mine other : List Nat) => chained.any fun n =>
    let c := gChain (fr n)
    let follows := fun (a : Nat) =>
      (gSucc (fr a) = gSeq (fr n) || gSucc (fr a) = 0xFFF) &&
      (gPred (fr n) = gSeq (fr a) || gPred (fr n) = 0xFFF || gPred (fr n) = 0)
    mine.contains n && !other.contains n &&
    chained.any (fun a => !mine.contains a && gChain (fr a) = c && follows a) &&
    !other.any fun a => gClass (fr a) = 2 && gChain (fr a) = c
  splits b1 b2 || splits b2 b1

/-- The switch frames of an image with a router opcode, by page and site. -/
def Image.routers (m : Image) (op : Nat) : List FrameBits := m.frames.filter fun f => frameLayout f = 2 && opcOf f = op

/-- The graph: streams, parts, affine bounds, CARRY limits, block-scale FIFOs, chain branches. -/
def checkGraph (m : Image) (rec : Bool) : Bad :=
  let each := fun (p : Nat → Bool) (c : Byte) (a : Nat → Nat) => firstBad (m.gens.map fun n => badIf (p n) c (m.tval (a n)))
  let isOp := fun (n op : Nat) => opcOf (m.gen n).f = op
  firstBad [checkStreams m rec, firstBad (m.gens.map (checkParts m)),
    each (fun n => (isOp n 1 || isOp n 2) && !affineOk (m.gen n)) 0x6B (partAddr 0),
    firstBad ((m.routers 5).map fun f => badIf (carryBad m f) 0x69 (m.tval (frameAddr f))),
    each (fun n => (m.gen n).scaleFrom.isSome && fifoBad m (m.gen n)) 0x6A (partAddr 0),
    firstBad ((m.routers 2).map fun f => badIf (steerBad m f) 0x70 (m.tval (frameAddr f)))]

/-! ### Step 5: records and tree (R120, R125) -/

/-- A record that breaks R120. -/
def recordBad (m : Image) (r : RecordBits) : Bool :=
  let v := r.toNat % 2 ^ 124
  match recOp r with
  | 0 => v ≠ 0
  | 1 => decide (2 ^ 32 ≤ v) || v = 0
  | 2 => v ≠ 0
  | 3 => decide (2 ^ 39 ≤ v)
  | 4 => decide (2 ^ 96 ≤ v) || (List.range 64).any fun p => v.testBit p && !m.hasPage p
  | 5 => decide (64 ≤ v)
  | 6 => decide (64 ≤ v)
  | 7 => decide (64 ≤ v)
  | 8 => decide (2 ^ 52 ≤ v) || bits v 50 2 = 3 || (bits v 50 2 = 2 && bits v 32 8 ≠ 0)
  | 9 => decide (256 ≤ v) || !m.hasPage (v % 64)
  | 10 => decide (64 ≤ v)
  | 11 => v ≠ 0
  | _ => true

/-- An opener that is open: its index, whether it has a child, its opcode, whether it stands in a PIPE. -/
structure OpenRec where
  i      : Nat
  child  : Bool
  op     : Nat
  inPipe : Bool
  deriving DecidableEq, Repr

/-- The first record at which the tree breaks R125, as the index R125 reports. A guard before nothing shows at the end of the
records, as an opener that is still open does; the guard is reported (log entry 74). -/
def treeFault : List RecordBits → Nat → List OpenRec → Option RecordBits → Option Nat
  | [], i, st, prev =>
    if prev.any fun p => recOp p = 6 || recOp p = 7 then some (i - 1) else st.head?.map (·.i)
  | r :: rs, i, st, prev =>
    let op := recOp r
    let pv := (prev.map recOp).getD 11
    match st with
    | [] => if i ≠ 0 || !isOpener r then some i else treeFault rs (i + 1) [⟨i, false, op, false⟩] (some r)
    | t :: up =>
      if (pv = 6 ∨ pv = 7) ∧ (isOpener r ∨ op = 10 ∨ op = 11) then some i
      else if op = 11 then if t.child then treeFault rs (i + 1) up (some r) else some t.i
      else
        let st1 := { t with child := true } :: up
        if isOpener r then
          if t.inPipe || (t.op = 1 && (op = 1 || op = 3)) || 16 ≤ st.length then some i
          else treeFault rs (i + 1) (⟨i, false, op, t.op = 1⟩ :: st1) (some r)
        else if op = 10 && (t.op = 1 || t.inPipe || !(pv ≤ 3 || pv = 11)) then some i
        else treeFault rs (i + 1) st1 (some r)

/-- The records, then the tree. -/
def checkRecords (m : Image) (rs : List RecordBits) : Bad :=
  firstBad [(rs.findIdx? (recordBad m)).map fun i => (0x6C, i), (treeFault rs 0 [] none).map fun i => (0x6D, i)]

/-! ### The checks in their order (R146) -/

/-- GENS against the generators of the frames (R147 0x62). In an image without frames TVAL takes index 0xFFFF_FFFF and address 0,
as for a page without frames (DESIGN CHOICE, log entry 74). -/
def checkGens (m : Image) (gens : Nat) : Bad :=
  badIf (gens ≠ m.gens.length) 0x62 (match m.frames.getLast? with
    | some f => frameAddr f * 2 ^ 32 + (m.frames.length - 1)
    | none => 0xFFFFFFFF)

/-- Steps 1 to 5 on the whole image, its header checked already; blocks is its block table, rec whether ports may be the
block dispatcher's. GENS is compared once every frame has been checked, at the end of step 2 (DESIGN CHOICE, log entry 74). -/
def checkImage (bs blocks : List Byte) (rec : Bool) (held : Nat → Bool) : Bad :=
  match checkTables bs blocks with
  | some b => some b
  | none =>
    let m := imageOf bs
    let absent := badIf (m.table.any fun t => !held t.page) 0x62 0xFFFFFFFF
    match firstBad [checkFrames m held none 0 m.frames, checkGens m (imgGens bs), absent] with
    | some b => some b
    | none => match firstBad ((m.table.zip m.nframes).map fun (p : PageInfo × Nat) => checkPage m p.1 p.2) with
      | some b => some b
      | none => match checkGraph m rec with
        | some b => some b
        | none => checkRecords m (imgRecords bs)

end Sys2Proof.Machine
end

