-- ==== Sys2Proof/Machine/Place.lean ====
section
/-! DEFINITION. Residency slots, the placement of pages, the binding of generators, and the start of a graph (11 R219, R227,
R229, R240; 12 R252, R257; 27 R454, R455). -/

namespace Sys2Proof.Machine

/-! ### Slots (R219) -/

/-- The free slot of a die that was freed longest ago; slots never used count as freed in ascending order (R219). -/
def State.freeSlot (s : State) (die : Nat) : Option GraphIx :=
  (List.range 1024).foldl (fun (b : Option GraphIx) i =>
    let g : GraphIx := Fin.ofNat 4096 (die * 1024 + i)
    let x := s.graph g
    if x.live then b
    else match b with
      | none => some g
      | some h => if x.freed < (s.graph h).freed then some g else b) none

/-- A slot freed: its generation for the next use, and its place in the order of frees (R219). -/
def State.release (s : State) (g : GraphIx) : State :=
  let n := s.dist.frees + 1
  { s.setGraph g { Graph.free with gen := ((s.graph g).gen + 1) % 16, freed := n } with dist := { s.dist with frees := n } }

/-- Whether a graph is running (R114, R240). -/
def Graph.started (x : Graph) : Bool := !(x.st = .idle || x.st = .ended)
/-- Whether a graph is CUT or RESTORING (R448). -/
def Graph.away (x : Graph) : Bool := x.ctx = .cut || x.ctx = .restoring

/-- The residency of a graph that owns no plane ends while it is not running and not CUT or RESTORING (R219). -/
def State.maybeRelease (s : State) (g : GraphIx) : State :=
  let x := s.graph g
  if x.live && !x.started && !x.away && (s.ownedPlanes g).isEmpty then s.release g else s

/-! ### Free regions and candidates (R227) -/

/-- The cores of a die. -/
def coresOf (die : Nat) : List CoreIx := (List.range 64).map fun i => Fin.ofNat 256 (die * 64 + i)
/-- The regions of a core. -/
def regionsOf (c : CoreIx) : List (CoreIx × Fin 16) := (List.range 16).map fun r => (c, Fin.ofNat 16 r)

/-- Whether a plane of a region is EMPTY and owned by no graph. -/
def Region.emptyAt (r : Region) (p : Nat) : Bool := let q := r.plane p; q.st = .empty && q.owner.isNone

/-- The planes asked of a region: a given one, or the lowest that is free (R227). -/
def State.freePlane (s : State) (want : Option Nat) (r : CoreIx × Fin 16) : Option Nat :=
  if s.repair.regions.contains r then none
  else match want with
    | some p => if (s.region r.1 r.2).emptyAt p then some p else none
    | none => ([0, 1, 2, 3] : List Nat).find? (s.region r.1 r.2).emptyAt

/-- The free regions of a core, for a test of regions. -/
def freeRegions (ok : CoreIx × Fin 16 → Bool) (c : CoreIx) : List (CoreIx × Fin 16) := (regionsOf c).filter ok

/-- An insertion by a key, stable. -/
def insertBy {α : Type} (key : α → Nat) (a : α) : List α → List α
  | [] => [a]
  | b :: r => if key a < key b then a :: b :: r else b :: insertBy key a r
/-- A stable sort by a key. -/
def sortBy {α : Type} (key : α → Nat) (l : List α) : List α := l.foldl (fun r a => insertBy key a r) []

/-- The candidates of rule 1: the cores with enough free regions, fewest first (R227). -/
def coreCandidates (ok : CoreIx × Fin 16 → Bool) (n : Nat) (cores : List CoreIx) : List (List (CoreIx × Fin 16)) :=
  ((sortBy (fun (l : List (CoreIx × Fin 16)) => l.length) ((cores.map (freeRegions ok)).filter fun l =>
    decide (n ≤ l.length)))).map (·.take n)

/-- The candidates of rule 2: the dies with enough free regions, most first (R227). -/
def dieCandidates (ok : CoreIx × Fin 16 → Bool) (n : Nat) (dies : List Nat) : List (List (CoreIx × Fin 16)) :=
  ((sortBy (fun (l : List (CoreIx × Fin 16)) => 1024 - l.length)
    ((dies.map fun d => (coresOf d).flatMap (freeRegions ok)).filter fun l => decide (n ≤ l.length)))).map (·.take n)

/-- The candidates for a graph of n pages on some dies, in the pager's order; a first core is tried alone (R227). -/
def candidates (ok : CoreIx × Fin 16 → Bool) (n : Nat) (first : List CoreIx) (dies : List Nat) : List (List (CoreIx × Fin 16)) :=
  coreCandidates ok n first ++ coreCandidates ok n (dies.flatMap coresOf) ++ dieCandidates ok n dies

/-! ### The binding of generators (R229, R252, R257) -/

/-- The first site a perimeter generator stands beside (R252). -/
def perimeterSite (i : Nat) : Nat × Nat :=
  if i < 8 then (2 * i, 0) else if i < 16 then (15, 2 * (i - 8)) else if i < 24 then (15 - 2 * (i - 16), 15)
  else (0, 15 - 2 * (i - 24))
/-- The Manhattan distance from a perimeter generator's first site to the nearest site of a region (R252). -/
def perimeterDist (i : Nat) (r : Fin 16) : Nat :=
  let (x, y) := perimeterSite i
  let one := fun (v lo : Nat) => if v < lo then lo - v else v - (lo + 3)
  one x (r.val % 4 * 4) + one y (r.val / 4 * 4)
/-- The distance of a slice: of the nearest of the four generators beside it (R256, R257, log entry 41). -/
def sliceDist (j : Nat) (r : Fin 16) : Nat :=
  let d := fun (k : Nat) => perimeterDist (j / 2 * 8 + j % 2 * 4 + k) r
  min (min (d 0) (d 1)) (min (d 2) (d 3))

/-- The perimeter generators and push engines that graphs hold; a CUT graph holds none. -/
def State.taken (s : State) : List (CoreIx × Nat) :=
  (s.graphs.filter fun x => x.2.ctx ≠ .cut).flatMap fun x => (x.2.gens.filter fun (q : Nat × Gen) => !q.2.frames.isEmpty).map fun (q : Nat × Gen) =>
    (q.2.core, q.2.place)

/-- The place that a generator gets on a core for a region: a push engine for a streaming AFFLD that feeds a stream, else
the nearest free perimeter generator (R229, R257). -/
def State.genPlace (s : State) (q : Gen) (taken : List (CoreIx × Nat)) (c : CoreIx) (r : Fin 16) : Option Nat :=
  let perimeter := (sortBy (fun i => perimeterDist i r) (List.range 32)).find? fun i => !taken.contains (c, i)
  if opcOf q.f = 1 && gClass q.f = 0 && !gTdst q.f then
    let slices := (sortBy (fun j => sliceDist j r) (List.range 8)).filter fun j => !s.repair.slices.contains (c, Fin.ofNat 8 j)
    match (slices.flatMap fun j => [32 + 2 * j, 33 + 2 * j]).find? fun p => !taken.contains (c, p) with
    | some p => some p
    | none => perimeter
  else perimeter

/-- The generators of a graph bound in logical order: each one's core and place; none where a core lacks a free one. -/
def State.bindGens (s : State) (x : Graph) : List (Nat × Gen) → List (CoreIx × Nat) → Option (List (Nat × CoreIx × Nat))
  | [], _ => some []
  | (n, q) :: r, taken => match x.place (x.pageOf q) with
    | none => s.bindGens x r taken
    | some (c, rg) => match s.genPlace q taken c rg with
      | none => none
      | some p => (s.bindGens x r ((c, p) :: taken)).map fun l => (n, c, p) :: l

/-- The graph with its generators where they were bound. -/
def Graph.bound (x : Graph) (l : List (Nat × CoreIx × Nat)) : Graph :=
  { x with gens := l.foldl (fun (m : SMap Gen) (b : Nat × CoreIx × Nat) =>
      SMap.set Gen.none m b.1 { SMap.get Gen.none m b.1 with core := b.2.1, place := b.2.2 }) x.gens }

/-- Frames of generators as the frames of the planes that pl gives them by generator (R454). -/
def Graph.addFrames (x : Graph) (pl : Nat → Nat) (fs : List FrameBits) : Graph :=
  { x with gens := fs.foldl (fun (m : SMap Gen) f =>
      if frameLayout f = 3 then
        let q := SMap.get Gen.none m (frameGen f)
        SMap.set Gen.none m (frameGen f) { q with frames := q.frames.set 0 (4 * pl (frameGen f) + framePage f) f }
      else m) x.gens }

/-! ### The start of a graph (R240, R455) -/

/-- The plane that a page of a graph starts on (R227, R240). -/
def Graph.startOf (x : Graph) (page : Nat) : Nat := x.starts.get 0 page

/-- Whether some region of a graph has a plane of another graph that meets a condition and beside which it cannot be ACTIVE: not
both are interleaved (R86). -/
def State.meets (s : State) (g : GraphIx) (c : Plane → Graph → Bool) : Bool :=
  let x := s.graph g
  x.pages.any fun p =>
    let r := s.region p.2.1 p.2.2
    ([0, 1, 2, 3] : List Nat).any fun i =>
      let q := r.plane i
      q.owner ≠ some g && (q.owner.any fun h => c q (s.graph h)) && !(r.inter && (x.pageInfo p.1).any (·.inter))

/-- Whether an ACTIVE plane of another graph that runs keeps a graph from being ACTIVE in some region of it; a graph that has ended
keeps no region (R86, R230). -/
def State.heldOff (s : State) (g : GraphIx) : Bool := s.meets g fun q y => q.st = .active && y.started

/-- Whether a graph must wait for a region: it is held off, or a context that is being restored holds the region already (R86, R230,
R231, R449). -/
def State.blocked (s : State) (g : GraphIx) : Bool := s.meets g fun q y => (q.st = .active && y.started) || y.ctx = .restoring

/-- A latched choice of a plane of the graph is cleared; one that another graph has made in a shared region stays (R86, R455). -/
def State.dropChoice (s : State) (g : GraphIx) (c : CoreIx) (r : Fin 16) : State :=
  let x := s.region c r
  match x.choice with
  | some p => if (x.plane p).owner = some g then s.setRegion c r { x with choice := none } else s
  | none => s

/-- The start plane of a graph ACTIVE in every region of it; its other ACTIVE planes SHADOW, its latched choices cleared (R240, R455). -/
def State.startPlanes (s : State) (g : GraphIx) : State :=
  let x := s.graph g
  (x.pages.foldl (fun (t : State) (p : Nat × CoreIx × Fin 16) =>
    let t1 := ([0, 1, 2, 3] : List (Fin 4)).foldl (fun (u : State) i =>
      let q := (u.region p.2.1 p.2.2).plane i.val
      if q.st = .active && q.owner = some g && i.val ≠ x.startOf p.1 then
        u.updPlane ⟨p.2.1, p.2.2, 0, i⟩ fun q => { q with st := .shadow, since := s.cycle }
      else u) t
    let t2 := t1.dropChoice g p.2.1 p.2.2
    t2.activatePlane ⟨p.2.1, p.2.2, 0, Fin.ofNat 4 (x.startOf p.1)⟩ ((x.pageInfo p.1).any (·.inter))) s).rebind g

/-- A graph as its first instant begins in RUN, the root record current (R240). -/
def Graph.begin (x : Graph) (cycle : Nat) : Graph :=
  { x with st := .run, dreg := (x.dinit.zipIdx.filter fun (p : Lane × Nat) => p.1 ≠ 0).map fun (p : Lane × Nat) => (p.2, p.1)
           latch := 0, arms := 0, armed := 0, sigs := 0, walk := enter x.tree 18 [] (.sub 0), running := [], last1 := false
           asleep := false, tocommit := none, closing := false, chains := [], dead := [], logged := [], logs := [], raised := [], noted := []
           held := none, ended := none, ctx := .running, cuts := 0, clean := 0, bare := 0, frozen := false, slice := cycle
           gens := x.gens.mapV .none fun _ q =>
             { q with loop := [0, 0, 0, 0, 0, 0], on := storeNest q.parts, fin := false, halt := false, win := 0, opened := false, snaps := [] } }

/-- GLAUNCH's steps. A graph that must wait for its regions starts as a waiting context and takes its planes when they are
free (R230, R231, R240, log entry 42). -/
def State.launch (s : State) (g : GraphIx) : State :=
  let s1 := (s.clearFaces g).updGraph g fun x => x.begin s.cycle
  if s.blocked g then s1.updGraph g fun x => { x with frozen := true, waits := s.cycle } else s1.startPlanes g

end Sys2Proof.Machine
end

