-- ==== Sys2Proof/Machine/Load.lean ====
section
/-! DEFINITION. Loads of configuration images: the arrival of an image, the checks at its end, what an image installs
(05 R87; 07 R143-R150; 11 R226, R235-R238; 17 R335; 25 R437, R449; 27 R454). -/

namespace Sys2Proof.Machine

/-! ### The pages of a load -/

/-- The pages of a load's image, as read for placement. -/
def Load.pages (l : Load) : List Nat := (List.range l.count).map fun k => byteNat l.pre (8 * k) 8 % 64

/-- The plane that a load writes of a page: a queue's graph starts each page on the plane it was placed on (R227). -/
def Load.planeFor (l : Load) (x : Graph) (page : Nat) : Nat := match l.kind with
  | .launch _ _ => x.startOf page
  | _ => l.plane

/-- The planes a load writes: of every page of a new graph; else of the pages of its image that the graph holds. -/
def State.loadPlanes (s : State) (g : GraphIx) (l : Load) : List Elt :=
  let x := s.graph g
  let at_ := fun (page : Nat) (p : CoreIx × Fin 16) => (⟨p.1, p.2, 0, Fin.ofNat 4 (l.planeFor x page)⟩ : Elt)
  match l.kind with
  | .graph => x.pages.map fun p => at_ p.1 p.2
  | .launch _ _ => x.pages.map fun p => at_ p.1 p.2
  | .restore page => ((x.place page).toList).map (at_ page)
  | _ => l.pages.filterMap fun n => (x.place n).map (at_ n)

/-- The planes of a load set going from the first frame: LOADING, owned by the graph, its sites blank (R87). -/
def State.beginPlane (s : State) (g : GraphIx) (page img : Nat) (e : Elt) : State :=
  (s.clearPlane e).updPlane e fun _ => ⟨.loading, some g, page, s.cycle, img⟩

/-- The load of a graph into a plane: the first of them. -/
def Graph.loadAt (x : Graph) (p : Nat) : Option Load := x.loads.find? fun l => l.plane = p
/-- The graph without that load. -/
def Graph.dropLoad (x : Graph) (l : Load) : Graph := { x with loads := x.loads.erase l }

/-! ### Arrival (R149, R150) -/

/-- The piece of the image that is read next: its header, then 32 bytes at a time; none once the image is read, or the
header, its base or its PAGES as read for placement fail a check. -/
def Load.next (l : Load) : Option (Nat × Nat) :=
  if l.img % 64 ≠ 0 || l.count = 0 || decide (64 < l.count) then none
  else if l.bytes.length < 256 then some (0, 256)
  else if (checkHeader l.bytes).isSome || byteNat l.bytes 5 1 ≠ l.count then none
  else if imgSize l.bytes ≤ l.bytes.length then none
  else some (l.bytes.length, min 32 (imgSize l.bytes - l.bytes.length))

/-- CONFIG_FRAME_ARRIVE: the next piece arrives; planes that went INCOMPLETE load again from the first frame (R87, R149). -/
def State.frameArrive (s : State) (g : GraphIx) (p : Nat) : State :=
  let x := s.graph g
  match if x.ctx = .cut then none else x.loadAt p with
  | none => s
  | some l =>
    let planes := s.loadPlanes g l
    if planes.any fun e => (s.planeOf e).st = .incomplete then
      (planes.foldl (fun t e => t.updPlane e fun q => { q with st := .loading }) s).setGraph g
        { x with loads := x.loads.map fun k => if k = l then { l with bytes := [] } else k }
    else match l.next with
      | none => s
      | some (o, n) => match s.engineRead l.asid (l.img + o) n with
        | .error _ => s
        | .ok bs => s.setGraph g { x with loads := x.loads.map fun k => if k = l then { l with bytes := l.bytes ++ bs } else k }

def execConfigFrameArrive (g : GraphIx) (p : BitVec 2) (s : State) : Answer := .next (s.frameArrive g p.toNat)

/-! ### The end of a load (R146, R148, R238, R335) -/

/-- The bytes of PAGES and the page table that differ from what was read for placement, of those that have been read (R238). -/
def Load.differs (l : Load) : List Nat :=
  (if 5 < l.bytes.length && byteNat l.bytes 5 1 ≠ l.count then [5] else []) ++
  ((List.range (8 * l.count)).filter fun i =>
    256 + i < l.bytes.length && l.bytes.getD (256 + i) 0 ≠ l.pre.getD i 0).map (256 + ·)

/-- The first byte at which the header breaks R128, or the header or the page table differs from what was read for placement
(R147, R238). -/
def Load.checkHead (l : Load) : Bad :=
  if l.bytes.length < 256 then none else (leastOf (headerFaults l.bytes ++ l.differs)).map fun o => (0x60, o)

/-- The stores and camera images of an image, after step 5 (R335). -/
def State.checkWorld (s : State) (asid : Byte) (bs : List Byte) : Bad :=
  let stores := (imgStoreTable bs).zipIdx.map fun (p : Nat × Nat) => match s.engineRead asid p.1 64 with
    | .error c => some (c, p.1)
    | .ok d => badIf (!storeOk d) 0x76 p.2
  let cams := (imgCams bs).zipIdx.map fun (p : Nat × Nat) => badIf (!camOk (imgStores bs) (imgCamImage bs p.2)) 0x77 p.1
  firstBad (stores ++ cams)

/-- The generators of an image that the graph holds not yet, with the frames of the image. -/
def Graph.newGens (x : Graph) (m : Image) : List (Nat × Gen) :=
  (m.gens.filter fun n => (x.genOf n).frames.isEmpty).map fun n => (n, m.gen n)

/-- The first check that a load fails, in the order of R146; what cannot be read fails with its own cause. -/
def State.loadCheck (s : State) (g : GraphIx) (l : Load) : Bad :=
  let x := s.graph g
  if l.img % 64 ≠ 0 then some (0x60, 0)
  else if l.count = 0 || decide (64 < l.count) then some (0x60, 5)
  else
    let unread : Bad := match l.next with
      | none => none
      | some (o, n) => match s.engineRead l.asid (l.img + o) n with
        | .error c => some (c, l.img + o)
        | .ok _ => none
    match firstBad [l.checkHead, unread] with
    | some b => some b
    | none =>
      let bs := l.bytes
      let blocks := match s.engineRead l.asid (imgBlktab bs) (32 * imgNblk bs) with
        | .ok b => if imgNblk bs = 0 then [] else b
        | .error _ => []
      let whole := match l.kind with
        | .pages => false
        | .block _ => false
        | _ => true
      let rec_ := imgNblk bs ≠ 0 || (match l.kind with | .block _ => true | _ => x.nblk ≠ 0)
      let bind : Bad := match s.bindGens x (x.newGens (imageOf bs)) s.taken with
        | some _ => none
        | none => some (0x84, 0)
      firstBad [checkImage bs blocks rec_ (fun p => whole || (x.place p).isSome), s.checkWorld l.asid bs, bind]

/-- Frames of sites installed into the planes of a load (R131, R148). -/
def State.installFrames (s : State) (g : GraphIx) (p : Nat → Nat) (only : Nat → Bool) (fs : List FrameBits) : State :=
  fs.foldl (fun (t : State) f =>
    if frameLayout f = 3 || !only (framePage f) then t
    else match (t.graph g).place (framePage f) with
      | none => t
      | some r =>
        let e : Elt := ⟨r.1, r.2, Fin.ofNat 16 (frameSite f), Fin.ofNat 4 (p (framePage f))⟩
        let y := t.site e
        t.setSite e (match frameLayout f with
          | 0 => { y with comp := some f }
          | 1 => { y with tileFr := some f }
          | _ => { y with switch := some f })) s

/-- The graph without what the generators and the stream switch hold for some pages in a plane. A generator that has no frames
left is free, unless `keep` says that an image just loaded names it again (R454). -/
def Graph.dropPlane (x : Graph) (p : Nat) (pages keep : Nat → Bool) : Graph :=
  { x with
    streams := x.streams.filter fun r => !(r.plane = p && (pages r.opage || pages r.ipage))
    gens := x.gens.mapV .none fun n q =>
      let u : Gen := { q with parts := q.partsAt p }
      if !u.parts.isEmpty && pages (x.pageOf u) then
        let left := q.frames.filter fun (f : Nat × FrameBits) => f.1 / 4 ≠ p
        if left.isEmpty && !keep n then .none else { q with frames := left }
      else q }

/-- Whether a load was placed with the generators of its image bound (R227, R229). -/
def LoadKind.placed : LoadKind → Bool
  | .graph => true
  | .launch _ _ => true
  | _ => false

/-- What a load of frames installs beside the frames of sites: the frames of generators, bound where they are new, and the
streams of its plane (R228, R229, R454). -/
def State.installStreams (s : State) (g : GraphIx) (l : Load) : State :=
  let m := imageOf l.bytes
  let old := s.graph g
  let pages := fun (n : Nat) => m.hasPage n
  let x := if l.kind.placed then old else old.dropPlane l.plane pages fun n => m.gens.contains n
  let binds := (s.bindGens x (old.newGens m) s.taken).getD []
  let y := (x.addFrames (fun n => l.planeFor x (x.pageOf (m.gen n))) m.frames).bound binds
  s.setGraph g { y with streams := y.streams ++ m.streams.map fun r => { r with plane := l.planeFor x r.opage } }

/-- The bytes that every full record of a graph takes, its page blocks without their entries (R443). -/
def Graph.recordBase (x : Graph) : Nat :=
  let pad := fun (n : Nat) => (n + 63) / 64 * 64
  let chains := x.chainsUsed.length
  let p := x.table.length
  256 + 64 * p + pad (8 * x.tree.length) + 64 * x.gens.length + pad (8 * chains) + 128 * 16 + 65600 * (2 * p) + 64 * p + 64

/-- The most bytes that the variables of an element take in a state entry, by its opcode (R447). -/
def stateMax (f : FrameBits) : Nat :=
  let op := opcOf f
  if op = 0x40 ∨ op = 0x41 ∨ op = 0x44 then 8196
  else if op = 0x2D then 4 + 83 * delayN (modOf f)
  else if op = 0x33 then 16 * (4 + 9 * topK (modOf f)) + 16
  else if op = 0x53 then 2 * (5 + 4 * 512) + 20
  else if 0x38 ≤ op ∧ op ≤ 0x3C then 2 * 84 + 2 * (4 + 83 * 16) + 32
  else 320

/-- The most bytes of entries of a site in one plane: two tokens in each of 8 links, 6 ports and 3 outputs, the streams of a port site
as far as they hold, its element and its router element with their drains (R92, R228, R447). -/
def SitePlane.entriesMax (x : SitePlane) : Nat :=
  88 * (34 + (x.cuffs.map fun p => p.2.cap).sum + (if x.cuffs.isEmpty then 0 else 8)) +
  (match x.tileFr, x.comp with
   | some _, _ => 80
   | none, some f => stateMax f + 80
   | none, none => 0) + (if x.switch.isSome then 96 else 0)

/-- The most bytes of what a generator holds of a bag, row, group or fibre: a bag a lane for each element of its row, a slot's fibre or
a video frame as much as an entry can say (R317, R389, R321, R447). -/
def Gen.partMax (q : Gen) : Nat :=
  let op := opcOf q.f
  if op = 0x06 then min (5 * q.count 0 + 16) 65552 else if op = 0x0D ∨ op = 0x15 then 65552 else 84 * 17 + 32

/-- The most bytes of entries of a generator: its output, 64 replies outstanding with a stop after each, what its streams hold, and what
it has consumed in part (R253, R447). -/
def Gen.entriesMax (q : Gen) : Nat := 88 * (2 + 128 + q.inq.cap + q.scq.cap) + 16 + q.partMax

/-- REQ, the bytes of the largest record of a graph, in the context table: written when the graph becomes resident, and again with the
frames of every plane that it loads later (R437, log entry 43). -/
def State.writeReq (s : State) (g : GraphIx) : State :=
  if s.ctxtab = 0 then s
  else
    let x := s.graph g
    let sites := (s.ownedPlanes g).flatMap fun a => (List.range 16).map fun i => (s.site { a with site := Fin.ofNat 16 i }).entriesMax
    let n := x.recordBase + sites.sum + (x.gens.map fun q => q.2.entriesMax).sum
    s.deviceWrite (s.ctxtab.toNat + 16 * g.val + 12) (leBytes 4 (min n (2 ^ 32 - 1)))

/-- What the image of a new graph installs: its declarations, tree, delay values, cameras and stores (R128-R130, R143, R238,
R335). -/
def State.installGraph (s : State) (g : GraphIx) (l : Load) : State :=
  let bs := l.bytes
  let lv := imgLevels bs
  let stores := (imgStoreTable bs).map fun a => match s.engineRead l.asid a 64 with
    | .ok d => d ++ leBytes 8 a
    | .error _ => leBytes 8 a
  let x := s.graph g
  (s.setGraph g { x with
    table := imgTable bs, inv := lv % 8, win := lv / 8 % 8, cut := lv / 64 % 8, dinit := imgDinit bs
    dreg := ((imgDinit bs).zipIdx.filter fun (p : Lane × Nat) => p.1 ≠ 0).map fun (p : Lane × Nat) => (p.2, p.1)
    tree := imgRecords bs, stores := stores, nblk := imgNblk bs, blktab := imgBlktab bs, img := l.img
    cams := (imgCams bs).zipIdx.foldl (fun (m : SMap (List Byte)) (p : Nat × Nat) =>
      SMap.set Camera.zero m p.1 (imgCamImage bs p.2)) [] }).writeReq g

/-- A load that succeeds: frames, streams, the rest of a new graph's image; the planes become SHADOW (R87, R238). -/
def State.loadInstall (s : State) (g : GraphIx) (l : Load) : State :=
  let planes := s.loadPlanes g l
  let only := match l.kind with
    | .restore page => fun n => n = page
    | _ => fun _ => true
  let s1 := s.installFrames g (l.planeFor (s.graph g)) only (imgFrameList l.bytes)
  let s2 := match l.kind with
    | .graph => (s1.installStreams g l).installGraph g l
    | .launch _ _ => (s1.installStreams g l).installGraph g l
    | .restore _ => s1
    | _ => (s1.installStreams g l).writeReq g
  let s3 := planes.foldl (fun t e => t.updPlane e fun q => { q with st := .shadow }) s2
  s3.updGraph g fun x => { x.dropLoad l with loaded := some 0 }

/-- A launch from a queue that fails: LASTERR, LASTIDX, and the cause at core 0 of die 0 (R226). -/
def State.queueFail (s : State) (q : Nat) (idx : Nat) (c : Byte) (v : Nat) : State :=
  let d := field s.block.qtable 12 40 * 2 ^ 12 + 128 * q
  ((s.deviceWrite (d + 24) (leBytes 8 (statusWord c v).toNat)).deviceWrite (d + 32) (leBytes 4 idx)).post 0 (plainCause c true (BitVec.ofNat 64 q))

/-- A load that fails: its planes go EMPTY and nothing of the image is installed (R148). A graph that owned nothing else is
resident no longer, except one whose first load it was: its end is still to be read (R219, R238). -/
def State.loadFail (s : State) (g : GraphIx) (l : Load) (c : Byte) (v : Nat) : State :=
  let planes := s.loadPlanes g l
  let s1 := planes.foldl State.clearPlane s
  let s2 := s1.updGraph g fun x => { x.dropLoad l with loaded := some (statusWord c v) }
  match l.kind with
  | .launch q idx => (s2.queueFail q idx c v).release g
  | .block b => (s2.updGraph g fun x =>
      { x with blocks := x.blocks.upd ⟨0, 0, false⟩ b fun k => { k with bad := true }, st := .held
               held := some ⟨c, BitVec.ofNat 64 v, true, 0, 0⟩ }).post 0
        (plainCause c true (BitVec.ofNat 64 (((s.graph g).queue).getD 0)))
  | .restore _ => (s2.updGraph g fun x => { x with loads := [] }).endGraph g (statusWord c v)
  | .graph => s2.updGraph g fun x => { x with gens := [] }
  | .pages => s2.maybeRelease g

/-- CFG_LOAD_COMPLETE: the image has been read, or cannot be: the first failing check ends the load, else it installs. A
queue's graph starts; a block waits for the next instant end (R146, R148, R223, R236). -/
def State.loadComplete (s : State) (g : GraphIx) (p : Nat) : State :=
  let x := s.graph g
  match if x.ctx = .cut then none else x.loadAt p with
  | none => s
  | some l =>
    if (s.loadPlanes g l).any fun e => (s.planeOf e).st = .incomplete then s
    else
      let more := match l.next with
        | none => false
        | some (o, n) => match s.engineRead l.asid (l.img + o) n with
          | .error _ => false
          | .ok _ => true
      if more then s
      else match s.loadCheck g l with
        | some (c, v) => s.loadFail g l c v
        | none =>
          let s1 := s.loadInstall g l
          match l.kind with
          | .launch _ _ => s1.launch g
          | .block _ =>
            let planes := s.loadPlanes g l
            (planes.foldl (fun (t : State) e =>
              t.setRegion e.core e.region { t.region e.core e.region with choice := some p }) s1)
          | _ => s1

def execCfgLoadComplete (g : GraphIx) (p : BitVec 2) (s : State) : Answer := .next (s.loadComplete g p.toNat)

end Sys2Proof.Machine
end

