-- ==== Sys2Proof/Machine/Commands.lean ====
section
/-! DEFINITION. The eight fabric commands (11 R237-R244; 25 R451; 27 R454, R455). -/

namespace Sys2Proof.Machine

/-- n bytes that the acting core reads, as an instruction's access: a trap, or what follows (R22, R59, R263). -/
def State.coreRead (s : State) (a : Word) (n : Nat) (k : List Byte → State → Answer) : Answer :=
  match s.span a n .load with
  | .trap c t => s.trap c t
  | .ok pas s1 => match s1.undeliverables pas with
    | some c => s.trap c a
    | none => k (if isBlock pas then List.replicate n 0 else s1.bytesAt pas) s1

/-- A command on the graph a register names; an invalid handle raises 0x83 (R237). -/
def State.withGraph (s : State) (v tval : Word) (k : GraphIx → Answer) : Answer :=
  match s.byHandle v with
  | some g => k g
  | none => s.trap 0x83 tval

/-- TVAL of 0x85: the core and the number of a region (R238). -/
def regionTval (e : Elt) : Word := BitVec.ofNat 64 (e.core.val * 16 + e.region.val)

/-- 0x85 for a graph that is CUT or RESTORING, which has no region: the value in TVAL is left open (R451). -/
def State.trapAway (s : State) : Answer := let (n, s1) := s.choose 4096; s1.trap 0x85 (BitVec.ofNat 64 n)

/-! ### CFGLOAD and CFGDROP (R238, R239) -/

/-- A graph on the regions of a candidate, its pages on the planes that pl gives, its generators bound where the image is known
(R227, R229). -/
def State.placedOn (s : State) (x0 : Graph) (ns : List Nat) (m : Option Image) (pl : CoreIx × Fin 16 → Nat)
    (l : List (CoreIx × Fin 16)) : Option Graph :=
  let pages := ns.zip (sortBy (fun (r : CoreIx × Fin 16) => regionKey r.1 r.2) l)
  let x := { x0 with
    pages := pages.map fun p => (p.1, p.2.1, p.2.2)
    starts := pages.foldl (fun (t : SMap Nat) p => t.set 0 p.1 (pl p.2)) [] }
  match m with
  | none => some x
  | some m => (s.bindGens x (x.newGens m) s.taken).map fun b =>
      (x.addFrames (fun n => x.startOf (x.pageOf (m.gen n))) m.frames).bound b

/-- An image as it can be read before placement: none where its header or bytes fail. -/
def State.imageAt (s : State) (asid : Byte) (img : Nat) : Option Image :=
  match s.engineRead asid img 256 with
  | .error _ => none
  | .ok h =>
    if (checkHeader h).isSome then none
    else match s.engineRead asid img (imgSize h) with
      | .error _ => none
      | .ok bs => some (imageOf bs)

/-- CFGLOAD of a new graph: placed on the acting core's die, on the first candidate that can bind its generators; its planes go
to LOADING (R227, R229, R238). -/
def State.cfgNew (s : State) (d : Reg) (p : Nat) (base : Word) (count : Nat) (pre : List Byte) : Answer :=
  let die := s.cur.val / 64
  let asid := s.me.asid
  let load : Load := ⟨p, base.toNat, asid, .graph, pre, count, []⟩
  let none_ := count = 0 || decide (64 < count)
  let places := if none_ then [[]] else candidates (fun r => (s.freePlane (some p) r).isSome) count [s.cur] [die]
  let image := if none_ then none else s.imageAt asid base.toNat
  let x0 := { Graph.free with live := true, asid := asid, img := base.toNat, loads := [load] }
  match places.findSome? (s.placedOn x0 load.pages image fun _ => p), s.freeSlot die with
  | some x, some g =>
    let s1 := s.setGraph g { x with gen := (s.graph g).gen, freed := (s.graph g).freed }
    let s2 := x.pages.foldl (fun (t : State) (q : Nat × CoreIx × Fin 16) =>
      t.beginPlane g q.1 base.toNat ⟨q.2.1, q.2.2, 0, Fin.ofNat 4 p⟩) s1
    s2.writeNext d (s2.handle g)
  | _, _ => s.writeNext d (statusWord 0x84 0)

/-- CFGLOAD into a resident graph: the planes of its pages that the image names go to LOADING (R238, R454). -/
def State.cfgInto (s : State) (d : Reg) (p : Nat) (g : GraphIx) (base : Word) (count : Nat) (pre : List Byte) : Answer :=
  let x := s.graph g
  let load : Load := ⟨p, base.toNat, s.me.asid, .pages, pre, count, []⟩
  let targets := if decide (64 < count) then [] else load.pages.filterMap fun n => (x.place n).map fun r =>
    (n, (⟨r.1, r.2, 0, Fin.ofNat 4 p⟩ : Elt))
  match targets.find? fun t =>
      let q := s.planeOf t.2
      q.st = .active || q.st = .loading || (q.owner.isSome && q.owner ≠ some g) with
  | some t => s.trap 0x85 (regionTval t.2)
  | none =>
    let old := x.loads.filter fun l => l.plane = p && l.pages.any load.pages.contains
    let s1 := old.foldl (fun t l => (t.loadPlanes g l).foldl State.clearPlane t) s
    let s2 := targets.foldl (fun (t : State) (q : Nat × Elt) => t.beginPlane g q.1 base.toNat q.2) s1
    let s3 := s2.updGraph g fun y => { y with loads := (y.loads.filter fun l => !old.contains l) ++ [load], loaded := none }
    s3.writeNext d (s3.handle g)

def execCfgload (d a b : Reg) (p : BitVec 2) (s : State) : Answer :=
  let base := s.reg a
  let h := s.reg b
  if !inRange base 1 then s.trap 0x20 base
  else if h ≠ 0 && (s.byHandle h).isNone then s.trap 0x83 h
  else if (s.byHandle h).any fun g => h ≠ 0 && (s.graph g).away then s.trapAway
  else s.coreRead (base + 5) 1 fun n s1 =>
    let count := leNat n
    let go := fun (pre : List Byte) (s2 : State) =>
      if h = 0 then s2.cfgNew d p.toNat base count pre
      else match s2.byHandle h with
        | some g => s2.cfgInto d p.toNat g base count pre
        | none => s2.trap 0x83 h
    if count = 0 || decide (64 < count) then go [] s1 else s1.coreRead (base + 256) (8 * count) go

def execCfgdrop (a : Reg) (p : BitVec 2) (s : State) : Answer :=
  s.withGraph (s.reg a) (s.reg a) fun g =>
    let x := s.graph g
    if x.away then s.trapAway
    else
      let planes := (s.ownedPlanes g).filter fun e => e.plane.val = p.toNat
      match planes.find? fun e => (s.planeOf e).st = .active || (s.planeOf e).st = .loading with
      | some e => s.trap 0x85 (regionTval e)
      | none =>
        let s1 := planes.foldl State.clearPlane s
        let s2 := s1.updGraph g fun y =>
          { y.dropPlane p.toNat (fun n => y.pages.any fun q => q.1 = n) (fun _ => false) with
            loads := y.loads.filter (·.plane ≠ p.toNat) }
        .next (s2.maybeRelease g).skip

/-! ### GLAUNCH (R240, R455) -/

/-- The code of a plane's state in GLAUNCH's status (R240). -/
def planeCode : PlaneState → Nat
  | .loading => 1
  | .incomplete => 2
  | _ => 0

/-- Why a graph cannot be started: v of status 0x86 (R240). -/
def State.notStartable (s : State) (g : GraphIx) : Option Nat :=
  let x := s.graph g
  if x.away then some 4
  else if x.started then some 3
  else
    let ready := fun (p : Nat × CoreIx × Fin 16) =>
      let q := (s.region p.2.1 p.2.2).plane (x.startOf p.1)
      q.owner = some g && (q.st = .shadow || q.st = .active)
    if x.pages.isEmpty then some 0
    else (x.pages.find? fun p => !ready p).map fun p =>
      let q := (s.region p.2.1 p.2.2).plane (x.startOf p.1)
      if q.owner = some g then planeCode q.st else 0

def execGlaunch (d a : Reg) (s : State) : Answer :=
  s.withGraph (s.reg a) (s.reg a) fun g => match s.notStartable g with
    | some v => s.writeNext d (statusWord 0x86 v)
    | none => (s.launch g).writeNext d 0

/-! ### QPUSH (R241) -/

/-- The address of a queue's descriptor (R221). -/
def State.queueAt (s : State) (q : Nat) : Nat := field s.block.qtable 12 40 * 2 ^ 12 + 128 * q

/-- Whether a queue's descriptor is there: QTABLE lies in a window and its words can be delivered (R221, log entry 57). -/
def State.queueThere (s : State) (q : Nat) : Bool :=
  window (s.queueAt q) ≠ .none && (s.undeliverables (addrs (s.queueAt q) 128)).isNone
/-- EN of a queue (R221). -/
def State.queueEn (s : State) (q : Nat) : Bool := s.physNat (s.queueAt q + 10) 1 % 2 = 1
/-- Whether the distributor serves a queue: it is enabled and its descriptor keeps to R221 and R261. -/
def State.queueOk (s : State) (q : Nat) : Bool :=
  let d := s.queueAt q
  let bs := s.physBytes d 128
  let gap := fun (o n : Nat) => (reservedAt bs o n 0).isEmpty
  s.queueThere q && s.queueEn q && (reservedAt bs 0 8 0xFFFFFFFFFFFC0).isEmpty &&
  decide (4 ≤ byteNat bs 8 1 ∧ byteNat bs 8 1 ≤ 16 ∧ byteNat bs 9 1 ≤ 7 ∧ byteNat bs 10 1 < 4) &&
  gap 12 4 && gap 20 4 && gap 36 28 && gap 68 60
/-- LOG2N, PRIO, OWN, ASID, HEAD, TAIL, BASE of a queue (R221, R261). -/
def State.queueLog (s : State) (q : Nat) : Nat := s.physNat (s.queueAt q + 8) 1
def State.queuePrio (s : State) (q : Nat) : Nat := s.physNat (s.queueAt q + 9) 1
def State.queueOwn (s : State) (q : Nat) : Bool := s.physNat (s.queueAt q + 10) 1 / 2 % 2 = 1
def State.queueAsid (s : State) (q : Nat) : Nat := s.physNat (s.queueAt q + 11) 1
def State.queueHead (s : State) (q : Nat) : Nat := s.physNat (s.queueAt q + 16) 4
def State.queueTail (s : State) (q : Nat) : Nat := s.physNat (s.queueAt q + 64) 4
def State.queueBase (s : State) (q : Nat) : Nat := s.physNat (s.queueAt q) 8
/-- The slot of record i (R221). -/
def State.queueSlot (s : State) (q i : Nat) : Nat := s.queueBase q + 64 * (i % 2 ^ s.queueLog q)

def execQpush (d a : Reg) (q : BitVec 6) (s : State) : Answer :=
  let va := s.reg a &&& ~~~63
  let n := q.toNat
  if !s.queueThere n || !s.queueEn n || !s.queueOwn n then s.writeNext d (statusWord 0x88 0)
  else if (s.queueTail n + 2 ^ 32 - s.queueHead n) % 2 ^ 32 = 2 ^ s.queueLog n then s.writeNext d (statusWord 0x87 0)
  else s.coreRead va 64 fun bs s1 =>
    let tail := s1.queueTail n
    let slot := s1.queueSlot n tail
    let where_ := addrs slot 64 ++ addrs (s1.queueAt n + 64) 4
    if where_.any fun p => window p = .none then s.writeNext d (statusWord 0x88 0)
    else match s1.storeRefused where_, s1.unstorable where_ with
      | some c, _ => s.trap c va
      | none, some c => s.trap c va
      | none, none =>
        let ks := where_.map s1.key
        let s2 := (s1.noteStores ks).storeBytes (addrs slot 64) bs
        (s2.storeNat (s1.queueAt n + 64) 4 (tail + 1)).writeNext d (BitVec.ofNat 64 tail)

/-! ### SIGEMIT, SIGREAD, ARMSEC, GWAIT (R242-R244) -/

def execSigemit (a : Reg) (n : BitVec 6) (s : State) : Answer :=
  s.withGraph (s.reg a) (s.reg a) fun g =>
    .next (s.updGraph g fun x => { x with latch := x.latch ||| (1 <<< n.toNat), asleep := false }).skip

def execSigread (d a : Reg) (n : BitVec 6) (s : State) : Answer :=
  s.withGraph (s.reg a) (s.reg a) fun g => s.writeNext d (BitVec.ofNat 64 (b2n ((s.graph g).sigs.getLsbD n.toNat)))

def execArmsec (a b : Reg) (s : State) : Answer :=
  let v := s.reg a
  let pages := s.reg b
  s.withGraph (BitVec.ofNat 64 (field v 0 48)) v fun g =>
    let x := s.graph g
    if !x.started then .next s.skip
    else if (List.range 64).any fun p => pages.getLsbD p && (x.place p).isNone then s.trap 0x8A pages
    else .next (s.updGraph g fun x => { x with arms := x.arms ||| pages, asleep := false }).skip

/-- A load's end is reported: a graph that owns no plane is resident only until then (R219, R238). The end of a queue's graph,
whose handle is stale with it, is still reported to a core that waits for it (R244). A graph that is CUT or RESTORING is waited
for (R451). -/
def execGwait (d a : Reg) (s : State) : Answer :=
  let v := s.reg a
  let h : Word := BitVec.ofNat 64 (field v 0 16)
  if v.getLsbD 63 || field v 16 46 ≠ 0 then s.trap 0x83 v
  else if let some g := (s.bySlot h).filter fun g => (s.graph g).done && !v.getLsbD 62 then
    s.writeNext d ((s.graph g).ended.getD 0)
  else s.withGraph h v fun g =>
    let x := s.graph g
    if x.away then .next s
    else if v.getLsbD 62 then
      if x.loads.isEmpty then (s.maybeRelease g).writeNext d (x.loaded.getD 0) else .next s
    else if x.st = .ended then (s.maybeRelease g).writeNext d (x.ended.getD 0)
    else .next s

end Sys2Proof.Machine
end

