-- ==== Sys2Proof/Machine/Codec.lean ====
section
/-! DEFINITION. The state variables of elements as a full record holds them, and as a restore takes them back (25 R447, R449).
Each opcode lists its variables once, in the order in which its description introduces them; what writes an entry and what
reads it follow that one list. -/

namespace Sys2Proof.Machine

/-- How a value stands in a record: what is written, and what is read from the head of some bytes. -/
structure Code (α : Type) where
  put  : α → List Byte
  take : List Byte → α × List Byte

/-- An index or count, 4 bytes (R447). -/
def Code.count : Code Nat := ⟨fun n => leBytes 4 n, fun bs => (leNat (bs.take 4), bs.drop 4)⟩
/-- A signed index, 4 bytes. -/
def Code.int : Code Int :=
  ⟨fun v => leBytes 4 (v.emod (2 ^ 32)).toNat, fun bs => ((BitVec.ofNat 32 (leNat (bs.take 4))).toInt, bs.drop 4)⟩
/-- A lane value, 5 bytes (R447). -/
def Code.lane : Code Lane := ⟨fun v => leBytes 5 v.toNat, fun bs => (BitVec.ofNat 40 (leNat (bs.take 5)), bs.drop 5)⟩
/-- A MASK, 2 bytes (R447). -/
def Code.mask : Code (BitVec 16) := ⟨fun v => leBytes 2 v.toNat, fun bs => (BitVec.ofNat 16 (leNat (bs.take 2)), bs.drop 2)⟩
/-- A flag, 1 byte (R447). -/
def Code.flag : Code Bool := ⟨fun b => leBytes 1 (b2n b), fun bs => (leNat (bs.take 1) % 2 = 1, bs.drop 1)⟩
/-- An FP32 entry of an accumulator, 4 bytes (R447). -/
def Code.f32 : Code (BitVec 32) := ⟨fun v => leBytes 4 v.toNat, fun bs => (BitVec.ofNat 32 (leNat (bs.take 4)), bs.drop 4)⟩
/-- Two values, one after the other. -/
def Code.pair (c : Code α) (d : Code β) : Code (α × β) :=
  ⟨fun v => c.put v.1 ++ d.put v.2, fun bs => let a := c.take bs; let b := d.take a.2; ((a.1, b.1), b.2)⟩
/-- A value that may be absent: a flag, and the value where the flag is set. -/
def Code.opt (c : Code α) : Code (Option α) :=
  ⟨fun v => match v with
      | none => Code.flag.put false
      | some a => Code.flag.put true ++ c.put a,
   fun bs => let f := Code.flag.take bs
             if f.1 then let a := c.take f.2; (some a.1, a.2) else (none, f.2)⟩
/-- What n values read one after the other. -/
def Code.takeN (c : Code α) : Nat → List Byte → List α × List Byte
  | 0, bs => ([], bs)
  | n + 1, bs => let a := c.take bs; let r := c.takeN n a.2; (a.1 :: r.1, r.2)
/-- n values of a kind, one after the other. -/
def Code.vec (c : Code α) (n : Nat) : Code (List α) := ⟨fun l => (l.take n).flatMap c.put, c.takeN n⟩
/-- Values of a kind as many as a count before them says. -/
def Code.list (c : Code α) : Code (List α) :=
  ⟨fun l => Code.count.put l.length ++ l.flatMap c.put, fun bs => let n := Code.count.take bs; c.takeN n.1 n.2⟩
/-- A token that an element keeps: its 16 lanes, its MASK, its F bit (R184, R186, R188). -/
def Code.token : Code Token :=
  ⟨fun t => (Code.lane.vec 16).put (lanesOf t.lane) ++ Code.mask.put t.mask ++ Code.flag.put t.fill,
   fun bs => let l := (Code.lane.vec 16).take bs; let m := Code.mask.take l.2; let f := Code.flag.take m.2
             (valueTok m.1 f.1 fun i => l.1.getD i 0, f.2)⟩
/-- A closing token: its KIND as a count. -/
def Code.closing : Code Token :=
  ⟨fun t => Code.count.put t.kind.val,
   fun bs => let n := Code.count.take bs; (if n.1 = 7 then doneTok else stopTok (n.1 - 1), n.2)⟩

/-- A state variable: how it stands in an entry, and how it is put back. -/
structure Var (σ : Type) where
  put  : σ → List Byte
  take : List Byte → σ → σ × List Byte

/-- The variable that a code, a reading and a writing of the state make. -/
def Code.var (c : Code α) (get : σ → α) (set : σ → α → σ) : Var σ :=
  ⟨fun x => c.put (get x), fun bs x => let a := c.take bs; (set x a.1, a.2)⟩

/-- The bytes of some variables. -/
def Var.putAll (vs : List (Var σ)) (x : σ) : List Byte := vs.flatMap fun v => v.put x
/-- A state with some variables taken from bytes. -/
def Var.takeAll (vs : List (Var σ)) (bs : List Byte) (x : σ) : σ :=
  (vs.foldl (fun (p : σ × List Byte) v => v.take p.2 p.1) (x, bs)).1

/-! ### Cells (09 R182-R191) -/

/-- A variable of a cell. -/
def Code.cell (c : Code α) (get : Cell → α) (set : Cell → α → Cell) : Var SitePlane :=
  c.var (fun x => get x.cell) fun x v => x.setCell (set x.cell v)

/-- The variables of a compute cell, by its opcode, in the order of its description. -/
def cellVars (op : Nat) : List (Var SitePlane) :=
  let acc := (Code.lane.vec 16).cell (fun c => lanesOf (c.accLane op)) fun c v => { c with acc := v }
  let closes : List (Var SitePlane) :=
    [Code.flag.cell (·.fill) fun c v => { c with fill := v }, Code.flag.cell (·.seen) fun c v => { c with seen := v },
     Code.count.cell (·.out) fun c v => { c with out := v }]
  let n := Code.count.cell (·.n) fun c v => { c with n := v }
  let index := Code.count.opt.vec 16
  let tok := fun (get : Digits → Option Token) (set : Digits → Option Token → Digits) =>
    Code.token.opt.cell (fun c => get c.dig) fun c v => { c with dig := set c.dig v }
  match op with
  | 0x28 => [acc, Code.mask.cell (·.mask) fun c v => { c with mask := v }] ++ closes
  | 0x29 => [acc]
  | 0x31 => [acc]
  | 0x2A => [(Code.count.vec 16).cell (fun c => (List.range 16).map fun i => c.cnt.getD i 0) fun c v => { c with cnt := v }] ++ closes
  | 0x2B => [n]
  | 0x2D => [Code.token.list.cell (·.line) fun c v => { c with line := v }]
  | 0x32 => [Code.token.opt.cell (·.thr) fun c v => { c with thr := v },
      index.cell (fun c => (List.range 16).map fun i => c.found.getD i none) fun c v => { c with found := v },
      index.cell (fun c => (List.range 16).map fun i => c.last.getD i none) fun c v => { c with last := v }, n] ++ closes
  | 0x33 => [((Code.lane.pair Code.count).list.vec 16).cell (fun c => (List.range 16).map fun i => c.ranks.getD i [])
      fun c v => { c with ranks := v }, n] ++ closes
  | 0x34 => [((Code.lane.pair Code.count).list.vec 16).cell (fun c => (List.range 16).map fun i => c.ranks.getD i [])
      fun c v => { c with ranks := v }, n] ++ closes
  | _ => if 0x38 ≤ op ∧ op ≤ 0x3C then
      [tok (·.hdrA) fun d v => { d with hdrA := v }, tok (·.hdrB) fun d v => { d with hdrB := v },
       Code.token.list.cell (·.dig.plA) fun c v => { c with dig := { c.dig with plA := v } },
       Code.token.list.cell (·.dig.plB) fun c v => { c with dig := { c.dig with plB := v } },
       Code.count.cell (·.dig.out.length) fun c v => { c with dig := { c.dig with out := List.replicate v [0] } },
       Code.flag.cell (·.dig.cut) fun c v => { c with dig := { c.dig with cut := v } },
       Code.closing.opt.cell (·.dig.stop) fun c v => { c with dig := { c.dig with stop := v } }] ++ closes
    else []

/-! ### Fibre cells, tiles, matrix nodes and routers (10 R199-R216; 16 R306; 19 R366) -/

/-- A variable of a fibre cell. -/
def Code.fibre (c : Code α) (get : Fibre → α) (set : Fibre → α → Fibre) : Var SitePlane :=
  c.var (fun x => get x.fibre) fun x v => x.setFibre (set x.fibre v)

/-- The variables of a fibre cell, by its opcode. -/
def fibreVars (op : Nat) (f : FrameBits) : List (Var SitePlane) :=
  let i := Code.count.fibre (·.i) fun q v => { q with i := v }
  let j := Code.count.fibre (·.j) fun q v => { q with j := v }
  let n := Code.count.fibre (·.n) fun q v => { q with n := v }
  let pa := Code.count.fibre (·.pa) fun q v => { q with pa := v }
  let pb := Code.count.fibre (·.pb) fun q v => { q with pb := v }
  match op with
  | 0x50 => [i]
  | 0x51 => [i]
  | 0x52 => [j, n, i, pa, pb]
  | 0x53 => [Code.count.list.opt.fibre (·.rootA) fun q v => { q with rootA := v },
             Code.count.list.opt.fibre (·.rootB) fun q v => { q with rootB := v }, j, n, i, pa, pb]
  | 0x56 => [i]
  | 0x57 => [(Code.lane.vec 16).fibre (fun q => lanesOf fun i => q.acc.getD i (redStart (opx (modOf f) 0 2))) fun q v => { q with acc := v },
             Code.mask.fibre (·.mask) fun q v => { q with mask := v }, Code.flag.fibre (·.seen) fun q v => { q with seen := v },
             Code.flag.fibre (·.out) fun q v => { q with out := v }]
  | 0x58 => [Code.flag.fibre (·.open_) fun q v => { q with open_ := v }]
  | _ => [pa, pb, Code.int.opt.fibre (·.ca) fun q v => { q with ca := v }, Code.int.opt.fibre (·.cb) fun q v => { q with cb := v }]

/-- The entries that the tokens an output buffer still holds came from (R365). -/
def bufEntries (ts : List Token) : SMap (BitVec 32) :=
  ts.zipIdx.foldl (fun m (p : Token × Nat) => shapeTake (96 - ts.length + p.2) p.1 m) []
/-- An output buffer of which n tokens are still to come (R365, R366). -/
def bufOf (acc : SMap (BitVec 32)) (n : Nat) : List Token := (accShape acc).drop (96 - n)

/-- The 1,024 entries of an accumulator, row by row, as a list, and back. -/
def accList (m : SMap (BitVec 32)) : List (BitVec 32) := (List.range 1024).map fun i => m.get 0 i
def accOf (l : List (BitVec 32)) : SMap (BitVec 32) := SMap.setN 0 [] 0 (l.take 1024)

/-- The variables of a matrix node: accumulator, output buffer, group position (R447). How much of the buffer has been emitted
stands beside the record (log entry 46). -/
def matrixVars : List (Var SitePlane) :=
  let var := fun {α : Type} (c : Code α) (get : Matrix → α) (set : Matrix → α → Matrix) =>
    c.var (fun (x : SitePlane) => get x.matrix) fun x v => x.setMatrix (set x.matrix v)
  [var (Code.f32.vec 1024) (fun q => accList q.acc) fun q v => { q with acc := accOf v },
   var (Code.f32.vec 1024) (fun q => accList (bufEntries q.buf)) fun q v => { q with buf := bufOf (accOf v) q.buf.length },
   var Code.count (·.steps) fun q v => { q with steps := v }]

/-- The drain of one half of a site: whether it drains, the ports whose D it has consumed, the outputs it owes D, and whether it
discards after a skip request (R102, R165). -/
def halfVars (r : Bool) : List (Var SitePlane) :=
  let var := fun {α : Type} (c : Code α) (get : Half → α) (set : Half → α → Half) =>
    c.var (fun (x : SitePlane) => get (x.half r)) fun x v => x.setHalf r (set (x.half r) v)
  [var Code.count.list.opt (·.drain) fun h v => { h with drain := v },
   var Code.count.list (·.dOut) fun h v => { h with dOut := v },
   var Code.flag (·.skip) fun h v => { h with skip := v }]

/-- The variables of the element of a site, by its frame. -/
def SitePlane.elemVars (x : SitePlane) : List (Var SitePlane) :=
  (match x.tileFr, x.comp with
   | some _, _ => [Code.count.var (·.tile.pos) fun y v => { y with tile := { y.tile with pos := v } }]
   | none, some f =>
     let op := opcOf f
     if op = 0x40 ∨ op = 0x41 ∨ op = 0x44 then matrixVars
     else if 0x50 ≤ op ∧ op ≤ 0x58 then fibreVars op f else cellVars op
   | none, none => []) ++ halfVars false

/-- The variables of a router element (R199). -/
def routerVars : List (Var SitePlane) :=
  let var := fun {α : Type} (c : Code α) (get : Router → α) (set : Router → α → Router) =>
    c.var (fun (x : SitePlane) => get x.router) fun x v => x.setRouter (set x.router v)
  [var Code.flag (·.turn) fun q v => { q with turn := v }, var Code.int (·.occ) fun q v => { q with occ := v },
   var Code.flag (·.closing) fun q v => { q with closing := v }, var Code.count (·.half) fun q v => { q with half := v }] ++ halfVars true

/-! ### Generators -/

/-- A token of any kind as a generator keeps it: its 83 bytes. -/
def Code.anyToken : Code Token := ⟨Token.bytes, fun bs => (Token.ofBytes bs, bs.drop 83)⟩

/-- The variables of a generator: what it has consumed of a bag, row, group or fibre (R317, R309). -/
def genVars (op : Nat) : List (Var Gen) :=
  let var := fun {α : Type} (c : Code α) (get : GenPart → α) (set : GenPart → α → GenPart) =>
    c.var (fun (q : Gen) => get q.part) fun q v => { q with part := set q.part v }
  let n := var Code.count (·.n) fun p v => { p with n := v }
  let seen := var Code.flag (·.seen) fun p v => { p with seen := v }
  let acc := var Code.lane.list (·.acc) fun p v => { p with acc := v }
  if op = 6 then [acc, n, seen]
  else [var Code.anyToken.opt (·.first) fun p v => { p with first := v }, var Code.anyToken.list (·.toks) fun p v => { p with toks := v },
    acc, n, seen]

end Sys2Proof.Machine
end

