-- ==== Sys2Proof/Machine/Queue.lean ====
section
/-! DEFINITION. The hem sweep, the task distributor and completion counters, the cloning of pages, the blocks of record mode
(06 R115; 11 R221-R226, R233-R236; 25 R440). -/

namespace Sys2Proof.Machine

/-! ### The hem sweep (R115, R440) -/

/-- Whether a plane of a site holds no token, skip request or stage token (R440). -/
def SitePlane.bare (x : SitePlane) : Bool :=
  noTokens x.links && noTokens x.ports && noTokens x.cuffs && x.outs.isEmpty && x.stage.isEmpty &&
  x.elem.asked.isEmpty && x.rout.asked.isEmpty && x.elem.send.isNone && x.rout.send.isNone

/-- Whether a generator holds no token, and nothing is on its way to an engine or a tile (R440). -/
def Gen.bare (q : Gen) : Bool :=
  q.inq.toks.isEmpty && q.scq.toks.isEmpty && q.out = .empty && q.line.isEmpty && q.reqs.isEmpty && q.xfer.isEmpty

/-- Whether a memory reply is outstanding to a generator; after a fault, no chain or engine answers any more (R115, R407). -/
def Gen.awaits (q : Gen) (faulted : Bool) : Bool :=
  q.line.any fun i => if faulted then !i.ready && i.wait.isNone else !i.ready || i.wait.isSome

/-- Whether no memory reply is outstanding to any element of a graph. -/
def Graph.replied (x : Graph) : Bool :=
  let faulted := !x.noted.isEmpty || !x.raised.isEmpty
  (x.gens.all fun q => !q.2.awaits faulted) &&
  (faulted || x.chains.all fun (k : Nat × Chain) => k.2.way.isEmpty && k.2.held.isEmpty)

/-- What a sweep finds: an unchanged activity counter counts towards quiet, a graph without tokens towards empty. -/
def Graph.sweep (x : Graph) (bare : Bool) : Graph :=
  let still := x.act = x.swept
  let ok := x.replied
  { x with swept := x.act
           clean := if still then (if ok then min 2 (x.clean + 1) else 1) else 0
           bare := if still && bare && ok then min 2 (x.bare + 1) else 0 }

/-- Whether no stage, port or output of a graph holds a token, in whatever plane or clone (R440). -/
def State.graphBare (s : State) (g : GraphIx) : Bool :=
  let x := s.graph g
  ((s.ownedPlanes g).all fun a => (List.range 16).all fun i => (s.site { a with site := Fin.ofNat 16 i }).bare) &&
  (x.clone.all fun c => c.split.bare && c.order.bare) && x.gens.all fun q => q.2.bare

/-- The sweep of one graph. -/
def State.sweepGraph (s : State) (g : GraphIx) : State :=
  let x := s.graph g
  if x.live && x.started then
    s.setGraph g (x.sweep (s.graphBare g))
  else s

/-- The graphs of the module. -/
def State.graphIxs (s : State) : List GraphIx := s.graphs.map fun p => Fin.ofNat 4096 p.1

/-- HEM_SWEEP: every graph swept (R440). -/
def execHemSweep (s : State) : Answer := .next (s.graphIxs.foldl State.sweepGraph s)

/-! ### Completion (R223) -/

/-- Bytes that the device adds at an address of an address space: none where the access fails. -/
def State.engineAdd (s : State) (asid : Byte) (va n : Nat) : Option State :=
  match s.enginePas asid .store 2 va 4 with
  | .error _ => none
  | .ok pas =>
    if (s.storeRefused pas).isSome || (s.unstorable pas).isSome || (s.undeliverables pas).isSome then none
    else some (s.storeBytes pas (leBytes 4 ((leNat (s.bytesAt pas) + n) % 2 ^ 32)))

/-- COMPL_INCREMENT: a graph launched from a queue has ended: its counter counts up, its planes and slot become free; a
counter that cannot be reached gives 0x89 (R219, R223, R245). -/
def State.complete (s : State) (g : GraphIx) : State :=
  let x := s.graph g
  match x.queue with
  | none => s
  | some q =>
    if x.st ≠ .ended then s
    else
      let s1 := if x.compl = 0 then s else match s.engineAdd x.asid x.compl 1 with
        | some t => t
        | none => s.post 0 (plainCause 0x89 true (BitVec.ofNat 64 q))
      ((s1.ownedPlanes g).foldl State.clearPlane s1).release g

def execComplIncrement (g : GraphIx) (s : State) : Answer := .next (s.complete g)

/-! ### Queues (R221-R225) -/

/-- QTABLE.EN (R459). -/
def State.qtableEn (s : State) : Bool := s.block.qtable.getLsbD 0
/-- Whether the distributor examines a queue. -/
def State.queueOn (s : State) (q : Nat) : Bool := s.qtableEn && s.queueOk q
/-- The record at the head of a queue. -/
def State.queueRecord (s : State) (q : Nat) : List Byte := s.physBytes (s.queueSlot q (s.queueHead q)) 64
/-- IMG, NDEP and COMPL of a launch record (R223). -/
def launchImg (r : List Byte) : Nat := byteNat r 0 8 / 64 * 64 % 2 ^ 52
def launchDeps (r : List Byte) : Nat := byteNat r 0 8 / 8 % 8
def launchCompl (r : List Byte) : Nat := byteNat r 8 8
/-- Whether a launch record keeps to R223. -/
def launchOk (r : List Byte) : Bool :=
  let n := launchDeps r
  byteNat r 0 8 % 8 = 0 && decide (byteNat r 0 8 < 2 ^ 52) && decide (n ≤ 4) &&
  launchCompl r % 4 = 0 && decide (launchCompl r < 2 ^ 52) &&
  (List.range 4).all fun i =>
    if i < n then byteNat r (16 + 12 * i) 8 % 4 = 0 && decide (byteNat r (16 + 12 * i) 8 < 2 ^ 52)
    else zeroAt r (16 + 12 * i) 12
/-- Whether dependence i of a record holds; a counter that cannot be read does not (R223). -/
def State.depHolds (s : State) (asid : Byte) (r : List Byte) (i : Nat) : Bool :=
  match s.engineRead asid (byteNat r (16 + 12 * i) 8 / 4 * 4 % 2 ^ 52) 4 with
  | .error _ => false
  | .ok bs => decide ((leNat bs + 2 ^ 32 - byteNat r (24 + 12 * i) 4) % 2 ^ 32 < 2 ^ 31)

/-- The number of records of a queue that the distributor knows of and has not taken. -/
def State.queued (s : State) (q : Nat) : Nat := (s.dist.seen.get 0 q + 2 ^ 32 - s.queueHead q) % 2 ^ 32

/-- The head of a queue becomes eligible: once its dependences hold, it stays so (R223, R245). -/
def State.noteHead (s : State) (q : Nat) : State :=
  let r := s.queueRecord q
  let asid : Byte := BitVec.ofNat 8 (s.queueAsid q)
  if s.queueOn q && s.queued q ≠ 0 && s.dist.since.get 0 q = 0 &&
      (List.range (min 4 (launchDeps r))).all (s.depHolds asid r) then
    { s with dist := { s.dist with since := s.dist.since.set 0 q (s.cycle + 1) } }
  else s

/-- QUEUE_TAIL_SEEN: the distributor sees TAIL and the counters that the head waits for (R222, R223). -/
def State.tailSeen (s : State) (q : Nat) : State :=
  if s.queueOn q then
    ({ s with dist := { s.dist with seen := s.dist.seen.set 0 q (s.queueTail q) } } : State).noteHead q
  else s

def execQueueTailSeen (q : BitVec 6) (s : State) : Answer := .next (s.tailSeen q.toNat)

/-- How long the head of a queue has been eligible, if it is (R224). -/
def State.eligible (s : State) (q : Nat) : Option Nat :=
  if s.queueOn q && s.queued q ≠ 0 && s.dist.since.get 0 q ≠ 0 then some (s.cycle + 1 - s.dist.since.get 0 q) else none

/-- The effective priority of a head (R224). -/
def effective (prio w : Nat) : Nat := min 7 (prio + w / 65536)

/-- The head considered: highest effective priority, then larger w, then lower queue (R224). -/
def State.considered (s : State) : Option Nat :=
  ((List.range 64).foldl (fun (b : Option (Nat × Nat × Nat)) q => match s.eligible q with
    | none => b
    | some w =>
      let p := effective (s.queuePrio q) w
      match b with
      | none => some (q, p, w)
      | some c => if c.2.1 < p || (c.2.1 = p && decide (c.2.2 < w)) then some (q, p, w) else b) none).map (·.1)

/-- The head taken: HEAD counts up, and the record behind it is examined (R221, R224). -/
def State.takeHead (s : State) (q : Nat) : State :=
  let s1 := s.deviceWrite (s.queueAt q + 16) (leBytes 4 ((s.queueHead q + 1) % 2 ^ 32))
  ({ s1 with dist := { s1.dist with since := s1.dist.since.set 0 q 0 } } : State).noteHead q

/-! ### The launch of a record (R224-R227) -/

/-- The first candidate of all dies on which a graph fits, with a slot of its die (R219, R227). -/
def State.queuePlace (s : State) (x0 : Graph) (ns : List Nat) (m : Option Image) : Option (GraphIx × Graph) :=
  (candidates (fun r => (s.freePlane none r).isSome) ns.length [] [0, 1, 2, 3]).findSome? fun l =>
    (s.placedOn x0 ns m (fun r => (s.freePlane none r).getD 0) l).bind fun x => (s.freeSlot (x.home.val / 64)).map fun g => (g, x)

/-- A record whose image cannot be placed at all fails at once; else its graph is placed and its load begins (R224-R227). -/
def State.launchHead (s : State) (q : Nat) : State :=
  let r := s.queueRecord q
  let idx := s.queueHead q
  let asid : Byte := BitVec.ofNat 8 (s.queueAsid q)
  let img := launchImg r
  let fail := fun (c : Byte) (v : Nat) => (s.takeHead q).queueFail q idx c v
  if !launchOk r then fail 0x89 0
  else match s.engineRead asid (img + 5) 1 with
    | .error c => fail c img
    | .ok n =>
      let count := leNat n
      if count = 0 || decide (64 < count) then fail 0x60 5
      else match s.engineRead asid (img + 256) (8 * count) with
        | .error c => fail c img
        | .ok pre =>
          let load : Load := ⟨0, img, asid, .launch q idx, pre, count, []⟩
          let x0 := { Graph.free with
            live := true, asid := asid, prio := s.queuePrio q, queue := some q, compl := launchCompl r, img := img
            loads := [load] }
          match s.queuePlace x0 load.pages (s.imageAt asid img) with
          | none => s
          | some (g, x) =>
            let s1 := (s.takeHead q).setGraph g { x with gen := (s.graph g).gen, freed := (s.graph g).freed }
            x.pages.foldl (fun (t : State) p =>
              t.beginPlane g p.1 img ⟨p.2.1, p.2.2, 0, Fin.ofNat 4 (x.startOf p.1)⟩) s1

/-- DISTRIBUTOR_SELECT: one round (R224). -/
def State.distribute (s : State) : State := match s.considered with
  | none => s
  | some q => s.launchHead q

def execDistributorSelect (s : State) : Answer := .next s.distribute

/-! ### Cloning (R233) -/

/-- STALL_PERIOD: the stall counters of every cuff are cleared (R233). -/
def execStallPeriod (s : State) : Answer :=
  .next { s with sites := s.sites.mapV .empty fun _ x => { x with stalls := [] } }

/-- The region that a clone of a page would take: the lowest free one of the page's core with no ACTIVE plane, and the plane. -/
def State.cloneSpot (s : State) (c : CoreIx) : Option (Fin 16 × Nat) :=
  (List.range 16).findSome? fun i =>
    let r : Fin 16 := Fin.ofNat 16 i
    let rg := s.region c r
    if rg.planes.any fun p => p.2.st = .active then none else (s.freePlane none (c, r)).map fun p => (r, p)

/-- Whether a page of a graph is to be cloned: clonable, its counter at 49,152, no clone yet (R233). -/
def State.cloneDue (s : State) (g : GraphIx) (page : Nat) : Bool :=
  let x := s.graph g
  x.sitesRun && ((x.pageInfo page).any (·.clon)) && (x.clone.all (·.page ≠ page)) &&
  match s.cuffOf g page, (x.portsOf page 0).head? with
  | some e, some i => decide (49152 ≤ (s.site e).stalls.get 0 i)
  | _, _ => false

/-- PAGE_CLONE: the page's frames in a free region of its core; the copy is bound at the next invocation marker (R233). -/
def State.clonePage (s : State) (g : GraphIx) (page : Nat) : State :=
  if !s.cloneDue g page then s
  else match s.cuffOf g page with
    | none => s
    | some a => match s.cloneSpot a.core with
      | none => s
      | some (r, p) =>
        let s1 := s.updGraph g fun x =>
          { x with clone := x.clone ++ [⟨page, a.core, r, p, false, .empty, .empty, false⟩] }
        let s2 := (List.range 16).foldl (fun (t : State) i =>
          let y := t.site { a with site := Fin.ofNat 16 i }
          t.setSite ⟨a.core, r, Fin.ofNat 16 i, Fin.ofNat 4 p⟩
            { SitePlane.empty with comp := y.comp, tileFr := y.tileFr, switch := y.switch }) s1
        (s2.updPlane ⟨a.core, r, 0, Fin.ofNat 4 p⟩ fun _ =>
          ⟨.active, some g, page, s.cycle, (s.planeOf a).img⟩).rebind g

def execPageClone (g : GraphIx) (page : BitVec 6) (s : State) : Answer := .next (s.clonePage g page.toNat)

/-! ### Record mode (R235, R236) -/

/-- The entry of a block: IMG, QBASE, LOG2Q (R235). -/
def State.blockEntry (s : State) (g : GraphIx) (b : Nat) : Option (Nat × Nat × Nat) :=
  let x := s.graph g
  match s.engineRead x.asid (x.blktab + 32 * b) 32 with
  | .error _ => none
  | .ok bs => some (byteNat bs 0 8, byteNat bs 8 8, byteNat bs 16 1)

/-- The port site of a block that is resident on an ACTIVE or SHADOW plane: of its lowest page (R236). -/
def State.blockPlane (s : State) (g : GraphIx) (b : Nat) : Option Elt :=
  (s.blockEntry g b).bind fun e =>
    ((s.planesWith g fun q => (q.st = .active || q.st = .shadow) && q.img = e.1).head?).map fun a => { a with site := 15 }

/-- Bytes written at a virtual address of a graph by the device: none where the access fails. -/
def State.engineWrite (s : State) (asid : Byte) (va : Nat) (bs : List Byte) : Option State :=
  match s.enginePas asid .store (bs.length / 65536 + 2) va bs.length with
  | .error _ => none
  | .ok pas => if (s.storeRefused pas).isSome || (s.unstorable pas).isSome then none else some (s.storeBytes pas bs)

/-- The queue of a block at new counts, WAIT written into its entry (R235, R236). -/
def State.countBlock (s : State) (g : GraphIx) (b : Nat) (f : BlockQ → BlockQ) : Option State :=
  let s1 := s.updGraph g fun x => { x with blocks := x.blocks.upd ⟨0, 0, false⟩ b f, act := x.act + 1 }
  let x := s1.graph g
  s1.engineWrite x.asid (x.blktab + 32 * b + 20) (leBytes 4 (x.waiting b))

/-- A record as an entry queue stores it (R236). -/
def recordBytes (t : Token) : List Byte :=
  (List.range 16).flatMap (fun i => leBytes 5 (t.lane i).toNat) ++ leBytes 2 t.mask.toNat ++ List.replicate 14 0
/-- The record that 96 bytes of an entry queue hold. -/
def recordToken (bs : List Byte) : Token :=
  ⟨0, false, false, BitVec.ofNat 16 (byteNat bs 80 2), lanesOf fun i => BitVec.ofNat 40 (byteNat bs (5 * i) 5)⟩

/-- Whether an out stream of a page is bound to the block dispatcher (R236). -/
def State.dispatches (s : State) (g : GraphIx) (page port : Nat) : Option Elt :=
  let x := s.graph g
  if x.nblk = 0 || (x.cloneOf page).isSome then none
  else (s.cuffOf g page).bind fun e => if s.streamTo g e page port = some (.cuff e (8 + port)) then some e else none

/-- The block dispatcher takes a record: into in0 of a resident block, else into the entry queue; while neither takes it, the
stream stalls. A token that is no record is discarded (R236, log entry 45). -/
def State.dispatchBlock (s : State) (g : GraphIx) (page port : Nat) : State :=
  match s.dispatches g page port with
  | none => s
  | some e => match s.cuffHead e (8 + port) with
    | none => s
    | some t =>
      let x := s.graph g
      let b := (t.lane 15).toNat % 256
      let out := s.cuffPop e (8 + port)
      if t.kind ≠ 0 || t.err then out.updGraph g fun x => { x with act := x.act + 1 }
      else if x.nblk ≤ b then s
      else match s.blockPlane g b with
        | some d =>
          if s.retOf (.cuff d 0) then (out.arrive (.cuff d 0) t).updGraph g fun x => { x with act := x.act + 1 } else s
        | none => match s.blockEntry g b with
          | none => s
          | some (_, qb, lg) =>
            let n := x.waiting b
            if 2 ^ lg ≤ n then s
            else match out.engineWrite x.asid (qb + 96 * ((x.blockQ b).tail % 2 ^ lg)) (recordBytes t) with
              | none => s
              | some s1 => (s1.countBlock g b fun k => { k with tail := k.tail + 1 }).getD s

def execBlockDispatch (g : GraphIx) (page : BitVec 6) (port : BitVec 2) (s : State) : Answer :=
  .next (s.dispatchBlock g page.toNat port.toNat)

/-- The oldest record of an entry queue enters in0 of its block, which is ACTIVE (R236). -/
def State.feedBlock (s : State) (g : GraphIx) (b : Nat) (d : Elt) : State :=
  let x := s.graph g
  match s.blockEntry g b with
  | none => s
  | some (_, qb, lg) =>
    if !s.retOf (.cuff d 0) then s
    else match s.engineRead x.asid (qb + 96 * ((x.blockQ b).head % 2 ^ lg)) 96 with
      | .error _ => s
      | .ok bs => ((s.arrive (.cuff d 0) (recordToken bs)).countBlock g b fun k => { k with head := k.head + 1 }).getD s

/-- The block to feed: the lowest that is resident on an ACTIVE plane and has records waiting. -/
def State.feedable (s : State) (g : GraphIx) : Option (Nat × Elt) :=
  let x := s.graph g
  (List.range x.nblk).findSome? fun b =>
    if x.waiting b = 0 then none
    else (s.blockPlane g b).bind fun d => if (s.planeOf d).st = .active then some (b, d) else none

/-- The block to load: the non-resident one with the largest WAIT, the lower on a tie; not one whose image failed (R236, R245). -/
def State.loadable (s : State) (g : GraphIx) : Option Nat :=
  let x := s.graph g
  (List.range x.nblk).foldl (fun (b : Option Nat) i =>
    if x.waiting i = 0 || (x.blockQ i).bad || (s.blockPlane g i).isSome then b
    else match b with
      | none => some i
      | some j => if x.waiting j < x.waiting i then some i else b) none

/-- The plane that has been inactive longest in the regions of a graph: of those it may load into, the one that left ACTIVE
first, the lower on a tie (R236). -/
def State.idlePlane (s : State) (g : GraphIx) : Option Nat :=
  let x := s.graph g
  let free := fun (p : Nat) => x.pages.all fun r =>
    let q := (s.region r.2.1 r.2.2).plane p
    (q.owner.isNone || q.owner = some g) && q.st ≠ .active && q.st ≠ .loading
  let since := fun (p : Nat) => match x.pages with
    | r :: _ => ((s.region r.2.1 r.2.2).plane p).since
    | [] => 0
  (sortBy since (([0, 1, 2, 3] : List Nat).filter free)).head?

/-- The load of a block begins (R236). -/
def State.beginBlock (s : State) (g : GraphIx) (b p : Nat) : State :=
  let x := s.graph g
  match s.blockEntry g b with
  | none => s
  | some (img, _, _) =>
    let count := match s.engineRead x.asid (img + 5) 1 with
      | .ok n => leNat n
      | .error _ => 1
    let pre := match s.engineRead x.asid (img + 256) (8 * min 64 count) with
      | .ok l => l
      | .error _ => []
    let load : Load := ⟨p, img, x.asid, .block b, pre, count, []⟩
    let s1 := load.pages.foldl (fun (t : State) n => match x.place n with
      | some r => t.beginPlane g n img ⟨r.1, r.2, 0, Fin.ofNat 4 p⟩
      | none => t) s
    s1.updGraph g fun y => { y with loads := y.loads ++ [load] }

/-- BLOCK_SCHEDULE: records of the block that is ACTIVE enter it; when the graph is quiet with empty streams, the next block is
loaded. A graph that has no record left ends at the end of its instant (R236, log entry 45). -/
def State.scheduleBlock (s : State) (g : GraphIx) : State :=
  let x := s.graph g
  if x.nblk = 0 || !x.sitesRun then s
  else match s.feedable g with
    | some (b, d) => s.feedBlock g b d
    | none =>
      if !x.quiet || !s.streamsEmpty g || !x.loads.isEmpty then s
      else match s.loadable g, s.idlePlane g with
        | some b, some p => s.beginBlock g b p
        | _, _ => s

def execBlockSchedule (g : GraphIx) (s : State) : Answer := .next (s.scheduleBlock g)

end Sys2Proof.Machine
end

