-- ==== Sys2Proof/Machine/Context.lean ====
section
/-! DEFINITION. Time slices, clean and forced cuts, context records, and the restore of a context (11 R230, R231; 25
R436-R452). A restore takes what a record has a place for from the record in memory, and the rest from what stands beside it (log
entry 46). -/

namespace Sys2Proof.Machine

/-! ### Where the parts of a record stand (R443-R447) -/

/-- The bytes of a section padded to a multiple of 64. -/
def padTo64 (n : Nat) : Nat := (n + 63) / 64 * 64
/-- The set bits of a number below n, ascending. -/
def bitsOf (n v : Nat) : List Nat := (List.range n).filter v.testBit

/-- KIND: whether a record is full (R444). -/
def recFull (rec : List Byte) : Bool := byteNat rec 4 1 = 1
/-- PAGES, GENS, CTRLN, the camera registers and the chains of a record (R444). -/
def recPages (rec : List Byte) : Nat := byteNat rec 5 1
def recGens (rec : List Byte) : Nat := byteNat rec 6 2
def recCtrl (rec : List Byte) : Nat := byteNat rec 12 2
def recCams (rec : List Byte) : List Nat := bitsOf 16 (byteNat rec 14 2)
def recChains (rec : List Byte) : List Nat := bitsOf 64 (byteNat rec 32 8)
/-- Where the sections of a record begin: controller, generator and chain entries, camera registers, tile blocks (R443). -/
def ctrlAt (rec : List Byte) : Nat := 256 + 64 * recPages rec
def gensAt (rec : List Byte) : Nat := ctrlAt rec + padTo64 (8 * recCtrl rec)
def chainsAt (rec : List Byte) : Nat := gensAt rec + 64 * recGens rec
def camsAt (rec : List Byte) : Nat := chainsAt rec + padTo64 (8 * (recChains rec).length)
def tilesAt (rec : List Byte) : Nat := camsAt rec + 128 * (recCams rec).length

/-- A plane as a page entry names it: 1 ACTIVE, 2 SHADOW, 3 to be loaded again; whether it is CHOSEN; its image (R445). -/
structure SavedPlane where
  page   : Nat
  plane  : Nat
  code   : Nat
  chosen : Bool
  img    : Nat
  deriving DecidableEq, Repr

/-- The planes that the page entries of a record name, of so many pages (R445). -/
def planesIn (rec : List Byte) (pages : Nat) : List SavedPlane :=
  (List.range pages).flatMap fun i =>
    let o := 256 + 64 * i
    ([0, 1, 2, 3] : List Nat).filterMap fun p =>
      let b := byteNat rec (o + 2 + p) 1
      if b % 4 = 0 then none
      else some ⟨byteNat rec o 1 % 64, p, b % 4, b / 4 % 2 = 1, byteNat rec (o + 8 + 8 * p) 8 % 2 ^ 52 / 64 * 64⟩

/-- The first n bytes of a saved context's record, where it stands: in memory, or in a checkpoint (R443, R480). -/
def State.recordOf (s : State) (v : Saved) (n : Nat) : List Byte :=
  if v.bytes.isEmpty then s.physBytes v.area n else v.bytes.take n

/-- The planes of a CUT context, from its record (R445, R449). -/
def State.cutPlanes (s : State) (g : GraphIx) (v : Saved) : List SavedPlane :=
  let n := (s.graph g).table.length
  planesIn (s.recordOf v (256 + 64 * n)) n

/-! ### Who waits (R230, R231, R449) -/

/-- Whether a started graph waits for regions that another context holds (R230). -/
def Graph.waitsStart (x : Graph) : Bool := x.live && x.frozen && x.ctx = .running && x.st = .run
/-- Whether a context that has loaded its planes waits until it may be ACTIVE in its regions (R86, R449). -/
def State.waitsRestore (s : State) (g : GraphIx) : Bool := (s.graph g).live && (s.graph g).ctx = .restoring && s.heldOff g

/-- Whether a region is free for a CUT context: every plane that a PSTATE byte names is EMPTY and owned by no graph, no running graph is
ACTIVE beside it in sequential mode, and the region is not being retired (R86, R449, R453, R478; log entry 47). -/
def State.freeFor (s : State) (ps : List SavedPlane) (r : CoreIx × Fin 16) : Bool :=
  let rg := s.region r.1 r.2
  let held := !rg.inter && rg.planes.any fun p => p.2.st = .active && p.2.owner.any fun h => (s.graph h).started
  !s.repair.regions.contains r && !held && ps.all fun p => rg.emptyAt p.plane

/-- The pages of a graph on the regions of a candidate. -/
def Graph.placedOn (x : Graph) (l : List (CoreIx × Fin 16)) : Graph :=
  let rs := sortBy (fun (r : CoreIx × Fin 16) => regionKey r.1 r.2) l
  { x with pages := ((x.table.map (·.page)).zip rs).map fun p => (p.1, p.2.1, p.2.2) }

/-- The graph of a CUT context at the first place on its die that takes it and avoids some regions, its generators bound
(R227-R229, R449). -/
def State.placeCutBut (s : State) (g : GraphIx) (avoid : List (CoreIx × Fin 16)) : Option Graph :=
  let x := s.graph g
  match x.saved with
  | none => none
  | some v =>
    let ps := s.cutPlanes g v
    (candidates (fun r => s.freeFor ps r && !avoid.contains r) x.table.length [] [g.val / 1024]).findSome? fun l =>
      let y := { x.placedOn l with gens := v.gens }
      (s.bindGens y y.gens s.taken).map fun b => y.bound b

/-- Whether a context stands in a region of another, with a page or with a clone (R231, R245). -/
def Graph.overlaps (x y : Graph) : Bool := x.spots.any fun p => y.pages.any fun q => p.2 = q.2

/-- The contexts that wait for a region of g: started graphs and restored ones on its regions, and CUT contexts of its die without
a place. -/
def State.rivals (s : State) (g : GraphIx) : List GraphIx :=
  let x := s.graph g
  s.graphIxs.filter fun h =>
    let y := s.graph h
    h ≠ g && h.val / 1024 = g.val / 1024 &&
    (((y.waitsStart || s.waitsRestore h) && x.overlaps y) || (y.live && y.ctx = .cut && (s.placeCutBut h []).isNone))

/-- The waiting contexts in the order in which freed regions go to them: highest priority, longest wait, lower slot (R231). -/
def State.waiters (s : State) : List GraphIx :=
  sortBy (fun g => (7 - (s.graph g).prio) * 2 ^ 64 + (s.graph g).waits)
    (s.graphIxs.filter fun g => let x := s.graph g; x.waitsStart || s.waitsRestore g || (x.live && x.ctx = .cut))

/-- The regions that the first of some waiting contexts have a claim to: a started graph to all of its own, a CUT context to
those where it can be placed (R231). -/
def State.claims (s : State) (gs : List GraphIx) : List (CoreIx × Fin 16) :=
  gs.foldl (fun l g =>
    if (s.graph g).waitsStart || s.waitsRestore g then l ++ (s.graph g).pages.map (·.2)
    else match s.placeCutBut g l with
      | some y => l ++ y.pages.map (·.2)
      | none => l) []

/-- The waiting contexts before which regions go to a graph: those that stand before it in order (R231). -/
def State.before (s : State) (g : GraphIx) : List GraphIx := s.waiters.takeWhile (· ≠ g)

/-- The place of a CUT context, on regions that no waiting context of higher rank has a claim to (R231, R449). -/
def State.placeCut (s : State) (g : GraphIx) : Option Graph := s.placeCutBut g (s.claims (s.before g))

/-- The started graphs whose regions have become free run, unless a waiting context of higher rank has a claim to them (R231,
log entry 42). -/
def State.startWaiting (s : State) : State :=
  s.waiters.foldl (fun t g =>
    if (t.graph g).waitsStart && !t.blocked g &&
        (let l := t.claims (t.before g); (t.graph g).pages.all fun p => !l.contains p.2) then
      (t.updGraph g fun x => { x with frozen := false, slice := t.cycle }).startPlanes g
    else t) s

/-! ### The request of a cut (R231, R437, R438) -/

/-- The address of a graph's context-table entry (R437). -/
def State.contextAt (s : State) (g : GraphIx) : Nat := s.ctxtab.toNat + 16 * g.val
/-- AREA and SIZE of a graph, where its entry allows a cut (R437). -/
def State.cutArea (s : State) (g : GraphIx) : Option (Nat × Nat) :=
  let a := s.contextAt g
  let e := s.physNat a 8
  if s.ctxtab ≠ 0 && window a ≠ .none && (s.undeliverables (addrs a 16)).isNone && e % 64 = 0 && e ≠ 0 && decide (e < 2 ^ 52) &&
      decide (s.physNat (a + 12) 4 ≤ s.physNat (a + 8) 4) then some (e, s.physNat (a + 8) 4) else none

/-- Whether the scheduler asks for a cut: a rival of higher priority waits, or one of equal priority after a slice, or a
region of the context is being retired (R231, R478). -/
def State.cutAsked (s : State) (g : GraphIx) : Bool :=
  let x := s.graph g
  let spent := decide (x.slice + field (s.core x.home).quantum 0 32 * 1024 ≤ s.cycle)
  x.pages.any (fun p => s.repair.regions.contains p.2) || (s.rivals g).any fun h => decide (x.prio < (s.graph h).prio) || (spent && (s.graph h).prio = x.prio)

/-- QUANTUM_EXPIRY: the cut of a running context is requested (R231, R437, R438). -/
def State.requestCut (s : State) (g : GraphIx) : State :=
  let x := s.graph g
  if x.live && x.st = .run && x.ctx = .running && !x.frozen && x.raised.isEmpty && x.noted.isEmpty &&
      (s.cutArea g).isSome && s.cutAsked g then
    s.setGraph g { x with ctx := .draining, cutAt := s.cycle, clean := 0, bare := 0
                          saved := (s.cutArea g).map fun a => ⟨a.1, 0, false, [], [], []⟩ }
  else s

def execQuantumExpiry (g : GraphIx) (s : State) : Answer := .next (s.requestCut g)

/-! ### Elements at reset (R441) -/

/-- Whether the tile of a site is LIVE in a page (R129). -/
def Graph.tileLive (x : Graph) (page : Nat) (site : Nat) : Bool := match x.pageInfo page with
  | none => false
  | some t => (site = 2 && t.live % 2 = 1) || (site = 13 && t.live / 2 % 2 = 1)

/-- Whether every element of a graph is at reset (R441). -/
def State.allReset (s : State) (g : GraphIx) : Bool :=
  let x := s.graph g
  ((s.activeElts g).all fun e => (s.site e).atReset (x.tileLive (s.planeOf e).page e.site.val)) &&
  x.gens.all fun q => q.2.atReset

/-! ### The bytes of a record (R443-R447) -/

/-- A section padded with zero bytes to a multiple of 64. -/
def pad64 (bs : List Byte) : List Byte := bs ++ List.replicate ((64 - bs.length % 64) % 64) 0
/-- A state entry padded to 8 bytes. -/
def pad8 (bs : List Byte) : List Byte := bs ++ List.replicate ((8 - bs.length % 8) % 8) 0

/-- The event flags of a face as 5 bits (R109, R445). -/
def Face.code (f : Face) : Nat := b2n f.done + 2 * b2n f.err + 4 * b2n f.mark + 8 * b2n f.truth + 16 * b2n f.any
/-- The face that 5 bits hold. -/
def Face.ofCode (n : Nat) : Face := ⟨n % 2 = 1, n / 2 % 2 = 1, n / 4 % 2 = 1, n / 8 % 2 = 1, n / 16 % 2 = 1⟩
/-- The events of two faces. -/
def Face.or (a b : Face) : Face := ⟨a.done || b.done, a.err || b.err, a.mark || b.mark, a.truth || b.truth, a.any || b.any⟩

/-- The first site of the lowest ACTIVE plane of a page. -/
def State.pagePlane (s : State) (g : GraphIx) (page : Nat) : Option Elt := (s.cuffOf g page).map fun e => { e with site := 0 }

/-- The code of a plane in PSTATE (R445). -/
def pstate : PlaneState → Nat
  | .active => 1
  | .shadow => 2
  | .loading => 3
  | .incomplete => 3
  | .empty => 0

/-- The planes of a context (R445). -/
def State.savedPlanes (s : State) (g : GraphIx) : List SavedPlane :=
  (s.graph g).pages.flatMap fun p =>
    let r := s.region p.2.1 p.2.2
    ([0, 1, 2, 3] : List Nat).filterMap fun i =>
      let q := r.plane i
      if q.owner = some g then some ⟨p.1, i, pstate q.st, r.choice = some i, q.img⟩ else none

/-- The sites of the planes of a context. -/
def State.savedSites (s : State) (g : GraphIx) : List SavedSite :=
  (s.graph g).pages.flatMap fun p =>
    ([0, 1, 2, 3] : List (Fin 4)).flatMap fun i =>
      let q := (s.region p.2.1 p.2.2).plane i.val
      if q.owner = some g && (q.st = .active || q.st = .shadow) then
        (List.range 16).map fun n => ⟨p.1, n, i.val, s.site ⟨p.2.1, p.2.2, Fin.ofNat 16 n, i⟩⟩
      else []

/-- TREM of a page: the steps left to its matrix node (R367, R445). -/
def State.stepsLeft (s : State) (g : GraphIx) (page : Nat) : Nat := match s.pagePlane g page with
  | none => 0
  | some e => ((s.site { e with site := 5 }).matrix.tiles).getD 0

/-- A page entry (R445). -/
def State.pageEntry (s : State) (g : GraphIx) (ps : List SavedPlane) (page : Nat) : List Byte :=
  let x := s.graph g
  let t := (x.pageInfo page).getD ⟨page, false, false, 0, 0⟩
  let mine := fun (p : Nat) => ps.find? fun q => q.page = page && q.plane = p
  let faces := match s.pagePlane g page with
    | none => 0
    | some e => (List.range 16).foldl (fun n i =>
        let y := s.site { e with site := Fin.ofNat 16 i }
        n + y.elem.face.code * 2 ^ (5 * i) + y.rout.face.code * 2 ^ (5 * (16 + i))) 0
  leBytes 1 page ++ leBytes 1 (b2n t.inter + 2 * (t.live % 4) + 8 * b2n (x.running.contains page && !s.reachedD g page)) ++
  (List.range 4).flatMap (fun p => leBytes 1 (match mine p with | some q => q.code + 4 * b2n q.chosen | none => 0)) ++ ([0, 0] : List Byte) ++
  (List.range 4).flatMap (fun p => leBytes 8 (match mine p with | some q => q.img | none => 0)) ++
  leBytes 20 faces ++ leBytes 4 (s.stepsLeft g page)

/-- A controller entry: its count, CUR, DONE (R446). -/
def Graph.ctrlEntry (x : Graph) (current : List Nat) (i : Nat) : List Byte :=
  let w := Walking.at x.walk i
  leBytes 8 (w.1 % 2 ^ 32 + 2 ^ 32 * b2n (w.2.1 || current.contains i) + 2 ^ 33 * b2n w.2.2)

/-- A generator entry (R446). -/
def Gen.entry (q : Gen) : List Byte :=
  (List.range 6).flatMap (fun l => leBytes 4 (q.loop.getD l 0)) ++ leBytes 1 q.half.face.code ++
  leBytes 1 (b2n q.halt + 2 * b2n q.fin) ++ List.replicate 38 0

/-- A chain entry (R446). -/
def Chain.entry (k : Chain) : List Byte := match k.last with
  | none => leBytes 8 (k.cur % 2 ^ 16)
  | some (q, n) => leBytes 8 (k.cur % 2 ^ 16 + 2 ^ 16 * (q % 2 ^ 12) + 2 ^ 28 * (n % 2 ^ 12) + 2 ^ 40)

/-- The camera registers that are not all zero. -/
def Graph.camsUsed (x : Graph) : List Nat := (List.range 16).filter fun n => (x.camera n).any (· ≠ 0)

/-- A tile block: pp, cp, the statuses, the bytes (R446). -/
def tileBlock (t : Tile) (m : SMap Byte) : List Byte :=
  leBytes 1 t.pp ++ leBytes 1 t.cp ++ t.ring.getN 0 0 8 ++ List.replicate 54 0 ++ m.getN 0 0 65536

/-- The tiles a record holds: those LIVE, or all (R443). -/
def Graph.tilesSaved (x : Graph) (full : Bool) : List (Nat × Nat) :=
  x.pages.flatMap fun p => ([2, 13] : List Nat).filterMap fun i => if full || x.tileLive p.1 i then some (p.1, i) else none

/-- The tile block of a page's tile. -/
def State.tileBlockOf (s : State) (g : GraphIx) (k : Nat × Nat) : List Byte := match (s.graph g).place k.1 with
  | none => []
  | some r =>
    let e : Elt := match s.pagePlane g k.1 with
      | some e => { e with site := Fin.ofNat 16 k.2 }
      | none => ⟨r.1, r.2, Fin.ofNat 16 k.2, 0⟩
    tileBlock (s.site e).tile (s.tiles.get [] (siteKey r.1 r.2 e.site))

/-- A token entry (R447). -/
def tokenEntry (site plane cls sub slot gen : Nat) (t : Token) : List Byte :=
  leBytes 4 (site + 2 ^ 4 * plane + 2 ^ 6 * cls + 2 ^ 10 * sub + 2 ^ 13 * min slot 1 + 2 ^ 14 * gen) ++ t.bytes ++ [0]

/-- The token entries of a site (R447). -/
def SitePlane.tokenEntries (x : SitePlane) (site plane : Nat) : List (List Byte) :=
  let stages := fun (m : SMap Stage) (n cls : Nat) (sub : Nat → Nat) =>
    (List.range n).flatMap fun i => (stageAt m i).toks.zipIdx.map fun (p : Token × Nat) =>
      tokenEntry site plane cls (sub i) p.2 0 p.1
  let outs := (List.range 3).flatMap fun o => ((x.out o).cur.toList ++ (x.out o).nxt.toList).zipIdx.map fun (p : Token × Nat) =>
    tokenEntry site plane (1 + o) 0 p.2 0 p.1
  stages x.links 8 0 (fun i => i / 2 + 4 * (i % 2)) ++ outs ++ stages x.cuffs 16 4 (· % 4) ++
    stages x.ports 6 6 (fun i => if i < 3 then i else i + 1)

/-- What a generator still delivers and is known: not a reply to come, a chained access or a plane not fetched. -/
def Item.known (i : Item) : Bool := i.ready && i.wait.isNone && i.owed.isNone

/-- The token entries of a generator: its output, the replies it has received, what stands before it (R442). -/
def Gen.tokenEntries (q : Gen) (n : Nat) : List (List Byte) :=
  let out := q.out.cur.toList ++ q.out.nxt.toList ++ (q.line.filter (·.known)).map (·.tok)
  let ins := fun (sub : Nat) (l : List Token) => l.zipIdx.map fun (p : Token × Nat) => tokenEntry 0 0 4 sub p.2 n p.1
  (out.zipIdx.map fun (p : Token × Nat) => tokenEntry 0 0 5 0 p.2 n p.1) ++ ins 0 q.inq.toks ++ ins 1 q.scq.toks

/-- A state entry: its head, the variables, padded to 8 bytes (R447). Variables that take more bytes than the head's length can say
stand beside the record; the entry then holds none of them (log entry 46). -/
def stateEntry (site plane : Nat) (router : Bool) (gen : Option Nat) (bs : List Byte) : List Byte :=
  let vs := if bs.length < 2 ^ 16 then bs else []
  pad8 (leBytes 8 (site + 2 ^ 4 * plane + 2 ^ 6 * b2n router + 2 ^ 7 * b2n gen.isSome + 2 ^ 8 * gen.getD 0 +
    2 ^ 16 * vs.length) ++ vs)

/-- The state entries of a site: of its element and of its router element, where they are not at reset (R447). -/
def SitePlane.stateEntries (x : SitePlane) (site plane : Nat) (live : Bool) : List (List Byte) :=
  let e := { x with router := .reset, rout := .reset }
  let r := { x with cell := .reset, fibre := .reset, tile := .reset, matrix := .reset, elem := .reset }
  (if e.atReset live then [] else [stateEntry site plane false none (Var.putAll x.elemVars x)]) ++
  (if r.atReset true then [] else [stateEntry site plane true none (Var.putAll routerVars x)])

/-- The state entry of a generator that has consumed part of a group. -/
def Gen.stateEntries (q : Gen) (n : Nat) : List (List Byte) :=
  if q.atReset then [] else [stateEntry 0 0 false (some n) (Var.putAll (genVars (opcOf q.f)) q)]

/-- The page block of a page (R447). -/
def Graph.pageBlock (x : Graph) (sites : List SavedSite) (gens : SMap Gen) (page : Nat) : List Byte :=
  let mine := sites.filter (·.page = page)
  let gs := gens.filter fun (q : Nat × Gen) => x.pageOf q.2 = page
  let toks := mine.flatMap (fun v => v.x.tokenEntries v.site v.plane) ++ gs.flatMap fun q => q.2.tokenEntries q.1
  let sts := mine.flatMap (fun v => v.x.stateEntries v.site v.plane (x.tileLive page v.site)) ++
    gs.flatMap fun q => q.2.stateEntries q.1
  let body := toks.flatten ++ sts.flatten
  leBytes 4 (64 + body.length) ++ leBytes 2 toks.length ++ leBytes 2 sts.length ++ List.replicate 56 0 ++ body

/-- The record behind its header (R443). -/
def State.recordBody (s : State) (g : GraphIx) (full : Bool) (v : Saved) : List Byte :=
  let x := s.graph g
  let current := (currentBlocks x.tree 18 x.walk (.sub 0)).flatten
  let pages := x.table.map (·.page)
  pad64 (pages.flatMap (s.pageEntry g (s.savedPlanes g))) ++
  pad64 ((List.range x.tree.length).flatMap (x.ctrlEntry current)) ++
  pad64 (v.gens.flatMap fun q => q.2.entry) ++
  pad64 (x.chainsUsed.flatMap fun c => (x.chain c).entry) ++
  pad64 (x.camsUsed.flatMap x.camera) ++
  pad64 ((x.tilesSaved full).flatMap (s.tileBlockOf g)) ++
  (if full then pad64 (pages.flatMap (x.pageBlock v.sites v.gens)) else [])

/-- CLOCK of a core: a core that is held counts from reset on too (R14). -/
def State.clockOf (s : State) (c : CoreIx) : Nat := if (s.core c).run = .held then s.cycle else (s.core c).clock.toNat

/-- The header of a record (R444). -/
def State.recordHeader (s : State) (g : GraphIx) (full : Bool) (size : Nat) : List Byte :=
  let x := s.graph g
  let mask := fun (l : List Nat) => l.foldl (fun n i => n + 2 ^ i) 0
  leBytes 4 0xD4C1C0DE ++ leBytes 1 (b2n full) ++ leBytes 1 x.table.length ++ leBytes 2 x.gens.length ++ leBytes 4 size ++
  leBytes 2 x.tree.length ++ leBytes 2 (mask x.camsUsed) ++ leBytes 8 (s.handle g).toNat ++ leBytes 8 x.img ++
  leBytes 8 (mask x.chainsUsed) ++ leBytes 1 x.prio ++ [x.asid] ++ [0, 0] ++
  leBytes 4 ((x.gens.map fun q => q.2.win).foldl max 0) ++ leBytes 4 x.cuts ++ [0, 0, 0, 0] ++
  leBytes 8 (s.clockOf x.home) ++ (List.range 32).flatMap (fun i => leBytes 5 (x.dreg.get 0 i).toNat) ++
  leBytes 8 x.sigs.toNat ++ leBytes 8 x.latch.toNat ++ leBytes 8 x.arms.toNat ++ List.replicate 8 0

/-! ### The save (R439, R441, R442) -/

/-- The windows of a graph end and its pockets drain; the replay log is emptied (R439). -/
def State.emptyLog (s : State) (g : GraphIx) : State :=
  (s.endAndDrain g).updGraph g fun x =>
    if !x.pocket.isEmpty || !x.raised.isEmpty then x
    else { x with closing := false, logged := [], logs := [], dead := [], gens := x.gens.mapV .none fun _ q => { q with snaps := [] } }

/-- The context of a graph as it is saved, with its record (R443). -/
def State.contextOf (s : State) (g : GraphIx) (full : Bool) (area : Nat) : Saved × List Byte :=
  let s1 := s.updGraph g fun x => { x with cuts := x.cuts + 1 }
  let v : Saved := ⟨area, 0, full, [], s1.savedSites g, (s1.graph g).gens⟩
  let body := s1.recordBody g full v
  let size := 256 + body.length
  ({ v with size := size }, s1.recordHeader g full size ++ body)

/-- The windows end, the pockets drain and the replay log is emptied; clones are released, and the record is written (R233, R439,
R442). -/
def State.saveContext (s : State) (g : GraphIx) (full : Bool) : State :=
  let s1 := s.emptyLog g
  let y := s1.graph g
  if !y.pocket.isEmpty || !y.raised.isEmpty then s1
  else match y.saved with
    | none => s1
    | some a =>
      let s2 := s1.releaseClones g
      let (v, bytes) := s2.contextOf g full a.area
      (s2.deviceWrite a.area bytes).updGraph g fun x => { x with ctx := .saving, cuts := x.cuts + 1, saved := some v }

/-- Whether a draining graph is empty (R440). -/
def Graph.empty (x : Graph) : Bool := x.quiet && 2 ≤ x.bare

/-- CUT_SAVE: once the graph is empty, a compact record, or a full one where an element is not at reset (R439, R441). -/
def State.cutSave (s : State) (g : GraphIx) : State :=
  let x := s.graph g
  if x.live && x.ctx = .draining && x.empty && x.raised.isEmpty && x.noted.isEmpty then s.saveContext g (!s.allReset g) else s

def execCutSave (g : GraphIx) (s : State) : Answer := .next (s.cutSave g)

/-- Whether every reply to a frozen graph has arrived; what a chain holds back stays in its chain, and what has not been requested
is requested after the restore. -/
def Graph.settled (x : Graph) : Bool :=
  let inChain := fun (n : Nat) => x.chains.any fun (k : Nat × Chain) => k.2.held.any fun e => e.id = n
  (x.gens.all fun q => q.2.line.all fun i => match i.wait with
    | none => i.ready || i.owed.isSome
    | some n => inChain n) &&
  x.chains.all fun (k : Nat × Chain) => k.2.way.isEmpty

/-- DRAIN_BUDGET_EXPIRY: the budget of a requested cut is spent: the graph freezes, and once its replies have come its full
record is saved (R442). -/
def State.forceCut (s : State) (g : GraphIx) : State :=
  let x := s.graph g
  if x.live && x.ctx = .draining && x.raised.isEmpty && x.noted.isEmpty &&
      decide (x.cutAt + (s.core x.home).drainb.toNat * 1024 ≤ s.cycle) then
    if !x.frozen then s.setGraph g { x with frozen := true }
    else if x.settled then s.saveContext g true else s
  else s

def execDrainBudgetExpiry (g : GraphIx) (s : State) : Answer := .next (s.forceCut g)

/-- A saved context leaves its regions: planes go EMPTY, generators and clones are released (R448). -/
def State.leaveRegions (s : State) (g : GraphIx) : State :=
  let s1 := (s.interruptLoads g).releaseClones g
  let s2 := (s1.graph g).pages.foldl (fun (t : State) p => t.dropChoice g p.2.1 p.2.2) s1
  ((s2.ownedPlanes g).foldl State.clearPlane s2).updGraph g fun y =>
    { y with ctx := .cut, waits := s.cycle, latch := 0, arms := 0, frozen := true
             gens := y.gens.mapV .none fun _ q => { q with out := .empty, line := [], inq := ⟨[], true, q.inq.cap⟩
                                                           scq := ⟨[], true, q.scq.cap⟩ } }

/-- CONTEXT_SAVED: the record is written (R448). -/
def State.contextSaved (s : State) (g : GraphIx) : State :=
  let x := s.graph g
  if x.live && x.ctx = .saving && x.raised.isEmpty && x.noted.isEmpty then s.leaveRegions g else s

def execContextSaved (g : GraphIx) (s : State) : Answer := .next (s.contextSaved g)

/-! ### The restore (R449) -/

/-- The load of one saved plane (R449). -/
def State.restoreLoad (s : State) (g : GraphIx) (p : SavedPlane) : State :=
  let x := s.graph g
  match x.place p.page with
  | none => s
  | some r =>
    let count := match s.engineRead x.asid (p.img + 5) 1 with
      | .ok n => leNat n
      | .error _ => 1
    let pre := match s.engineRead x.asid (p.img + 256) (8 * min 64 count) with
      | .ok l => l
      | .error _ => []
    let load : Load := ⟨p.plane, p.img, x.asid, .restore p.page, pre, count, []⟩
    let s1 := s.beginPlane g p.page p.img ⟨r.1, r.2, 0, Fin.ofNat 4 p.plane⟩
    if p.code = 3 then s1 else s1.updGraph g fun y => { y with loads := load :: y.loads }

/-- CONTEXT_RESTORE: a CUT context takes free regions of its die, and its planes load again (R449). -/
def State.restoreContext (s : State) (g : GraphIx) : State :=
  let x := s.graph g
  if x.live && x.ctx = .cut then
    match x.saved, s.placeCut g with
    | some v, some y =>
      (s.cutPlanes g v).reverse.foldl (fun t p => t.restoreLoad g p)
        (s.setGraph g { y with ctx := .restoring, gens := y.gens, loads := y.loads.map fun l => { l with bytes := [] } })
    | _, _ => s
  else s

def execContextRestore (g : GraphIx) (s : State) : Answer := .next (s.restoreContext g)

/-- The bytes of a tile as a tile holds them. -/
def tileMem (bs : List Byte) : SMap Byte :=
  bs.zipIdx.filterMap fun (p : Byte × Nat) => if p.1 = 0 then none else some (p.2, p.1)
/-- The ring of statuses that 8 bytes hold. -/
def ringOf (bs : List Byte) : SMap Byte := tileMem (bs.take 8)

/-- The page blocks that stand one after another in some bytes, n of them (R447). -/
def blocksIn : Nat → List Byte → List (List Byte)
  | 0, _ => []
  | n + 1, bs => let k := max 64 (byteNat bs 0 4); bs.take k :: blocksIn n (bs.drop k)

/-- The token entries of a page block: location and token (R447). -/
def tokensIn (b : List Byte) : List (Nat × Token) :=
  (List.range (byteNat b 4 2)).map fun i =>
    let o := 64 + 88 * i
    (byteNat b o 4, Token.ofBytes ((b.drop (o + 4)).take 83))

/-- The state entries that stand one after another in some bytes, n of them: head and variables (R447). -/
def statesIn : Nat → List Byte → List (Nat × List Byte)
  | 0, _ => []
  | n + 1, bs =>
    let h := byteNat bs 0 8
    let k := h / 2 ^ 16 % 2 ^ 16
    (h, (bs.drop 8).take k) :: statesIn n (bs.drop (8 + (k + 7) / 8 * 8))

/-- A page block read: its page, its tokens, its states. -/
structure PageBlock where
  page   : Nat
  toks   : List (Nat × Token)
  states : List (Nat × List Byte)

/-- The page blocks of a full record; a compact one has none (R443, R447). -/
def pageBlocks (rec : List Byte) : List PageBlock :=
  let n := recPages rec
  if !recFull rec then []
  else ((List.range n).zip (blocksIn n (rec.drop (tilesAt rec + 65600 * (2 * n))))).map fun (p : Nat × List Byte) =>
    ⟨byteNat rec (256 + 64 * p.1) 1 % 64, tokensIn p.2, statesIn (byteNat p.2 6 2) (p.2.drop (64 + 88 * byteNat p.2 4 2))⟩

/-- A token put where its entry says, behind what stands there (R447). -/
def SitePlane.placeToken (x : SitePlane) (loc : Nat) (t : Token) : SitePlane :=
  let sub := loc / 2 ^ 10 % 8
  let add := fun (m : SMap Stage) (i : Nat) => SMap.set Stage.empty m i ((stageAt m i).push t)
  let out := fun (o : Nat) => { x with outs := x.outs.set .empty o (match (x.out o).cur with
    | none => ⟨some t, none⟩
    | some c => ⟨some c, some t⟩) }
  match loc / 2 ^ 6 % 16 with
  | 0 => { x with links := add x.links (2 * (sub % 4) + sub / 4) }
  | 1 => out 0
  | 2 => out 1
  | 3 => out 2
  | 4 => { x with cuffs := add x.cuffs (sub % 4) }
  | 6 => { x with ports := add x.ports (if sub < 3 then sub else sub - 1) }
  | _ => x

/-- A site that holds no token. -/
def SitePlane.noTokens (x : SitePlane) : SitePlane :=
  { x with links := [], ports := [], outs := [], cuffs := x.cuffs.mapV .empty fun _ y => ⟨[], true, y.cap⟩ }

/-- A site with its elements at reset; what the record has no place for stays (log entry 46). -/
def SitePlane.restReset (x : SitePlane) : SitePlane :=
  { x with cell := .reset, fibre := .reset, router := .reset, tile := { x.tile with pos := 0 }
           elem := { x.elem with drain := none, dOut := [], skip := false }, rout := { x.rout with drain := none, dOut := [], skip := false } }

/-- A site at a place of a page as the record has it: the tokens and states of its page's block, and where that names no state of an
element, the element at reset (R447, R449). -/
def SitePlane.restored (x : SitePlane) (bs : List PageBlock) (page site plane : Nat) : SitePlane :=
  let b := bs.filter (·.page = page)
  let here := fun (n : Nat) => n % 2 ^ 4 = site && n / 2 ^ 4 % 4 = plane
  let toks := (b.flatMap (·.toks)).filter fun p => here p.1 && p.1 / 2 ^ 14 = 0 && p.1 / 2 ^ 6 % 16 ≠ 5
  let st := fun (r : Nat) => ((b.flatMap (·.states)).find? fun p => here p.1 && p.1 / 2 ^ 6 % 4 = r).map (·.2)
  let y := toks.foldl (fun (y : SitePlane) p => y.placeToken p.1 p.2) x.restReset.noTokens
  let z := match st 0 with
    | some v => Var.takeAll y.elemVars v y
    | none => y.setMatrix { y.matrix with buf := [], steps := 0, begun := false }
  let w := match st 1 with
    | some v => Var.takeAll routerVars v z
    | none => z
  { w with links := driveAll w.links, ports := driveAll w.ports, cuffs := driveAll w.cuffs }

/-- The steps left to a matrix node (R367, R445). -/
def SitePlane.stepsFrom (x : SitePlane) (trem : Nat) : SitePlane :=
  if trem = 0 then x else x.setMatrix { x.matrix with tiles := some trem }

/-- The event flags that a page entry gives the faces of a site (R445). -/
def SitePlane.facesFrom (x : SitePlane) (flags site : Nat) : SitePlane :=
  { x with elem := { x.elem with face := Face.ofCode (flags / 2 ^ (5 * site)) }
           rout := { x.rout with face := Face.ofCode (flags / 2 ^ (5 * (16 + site))) } }

/-- The sites of a context at their page coordinates, with the frames that have been loaded (R449). -/
def State.restoreSites (s : State) (g : GraphIx) (v : Saved) (rec : List Byte) : State :=
  let bs := pageBlocks rec
  let ps := planesIn rec (recPages rec)
  v.sites.foldl (fun (t : State) k => match (t.graph g).place k.page with
    | none => t
    | some r =>
      let e : Elt := ⟨r.1, r.2, Fin.ofNat 16 k.site, Fin.ofNat 4 k.plane⟩
      let y := t.site e
      let z := ({ k.x with comp := y.comp, tileFr := y.tileFr, switch := y.switch }).restored bs k.page k.site k.plane
      let o := 256 + 64 * (((List.range (recPages rec)).find? fun i => byteNat rec (256 + 64 * i) 1 % 64 = k.page).getD 0)
      let first := ps.find? fun p => p.page = k.page && p.code = 1
      let w := if first.any (·.plane = k.plane) then
          (if k.site = 5 then z.stepsFrom (byteNat rec (o + 60) 4) else z).facesFrom (byteNat rec (o + 40) 20) k.site
        else z
      t.setSite e w) s

/-- The states and choices of the planes (R445, R449). -/
def State.restorePlanes (s : State) (g : GraphIx) (ps : List SavedPlane) : State :=
  ps.foldl (fun (t : State) k => match (t.graph g).place k.page with
    | none => t
    | some r =>
      let e : Elt := ⟨r.1, r.2, 0, Fin.ofNat 4 k.plane⟩
      let t1 := if k.code = 1 then t.updPlane e fun q => { q with st := .active } else t
      let rg := t1.region r.1 r.2
      t1.setRegion r.1 r.2 { rg with
        inter := if k.code = 1 then ((t.graph g).pageInfo k.page).any (·.inter) else rg.inter
        choice := if k.chosen then some k.plane else rg.choice }) s

/-- The tiles: those saved as the record holds them, every other one zero (R449). -/
def State.restoreTiles (s : State) (g : GraphIx) (full : Bool) (rec : List Byte) (base : Nat) : State :=
  let x := s.graph g
  let saved := (x.tilesSaved full).zipIdx
  x.pages.foldl (fun (t : State) p => ([2, 13] : List Nat).foldl (fun (u : State) i =>
    let key := siteKey p.2.1 p.2.2 (Fin.ofNat 16 i)
    match saved.find? fun (k : (Nat × Nat) × Nat) => k.1 = (p.1, i) with
    | none => { u with tiles := u.tiles.set [] key [] }
    | some k =>
      let o := base + 65600 * k.2
      let u1 : State := { u with tiles := u.tiles.set [] key (tileMem ((rec.drop (o + 64)).take 65536)) }
      match u1.pagePlane g p.1 with
      | none => u1
      | some e =>
        let a : Elt := { e with site := Fin.ofNat 16 i }
        let y := u1.site a
        u1.setSite a { y with tile := { y.tile with pp := byteNat rec o 1, cp := byteNat rec (o + 1) 1
                                                    ring := ringOf (rec.drop (o + 2)) } }) t) s

/-- What a generator delivers after a restore: the known tokens of its line replaced in order by those of the record; what is still to
come keeps its place. -/
def restoreLine : List Item → List Token → List Item
  | [], ts => ts.map fun t => Item.of t true
  | i :: r, ts =>
    if !i.known then i :: restoreLine r ts
    else match ts with
      | t :: rest => Item.of t true :: restoreLine r rest
      | [] => restoreLine r []

/-- A generator with the counters, flags, tokens and state that the record holds, resuming (R446-R448). -/
def Gen.restore (q : Gen) (rec : List Byte) (bs : List PageBlock) (n o : Nat) : Gen :=
  let b := byteNat rec (o + 25) 1
  let toks := bs.flatMap (·.toks)
  let mine := fun (cls sub : Nat) => (toks.filter fun p => p.1 / 2 ^ 14 % 256 = n && p.1 % 2 ^ 4 = 0 && p.1 / 2 ^ 6 % 16 = cls &&
    p.1 / 2 ^ 10 % 4 = sub).map (·.2)
  let out := mine 5 0
  let two := q.out.nxt.isSome
  let q1 := { q with
    loop := (List.range 6).map fun l => byteNat rec (o + 4 * l) 4
    half := { q.half with face := Face.ofCode (byteNat rec (o + 24) 1) }
    fin := b / 2 % 2 = 1, halt := false
    out := ⟨out.head?, if two then out.tail.head? else .none⟩, line := restoreLine q.line (if two then out.tail.tail else out.tail)
    inq := ({ q.inq with toks := mine 4 0 }).drive, scq := ({ q.scq with toks := mine 4 1 }).drive }
  match (bs.flatMap (·.states)).find? fun p => p.1 / 2 ^ 7 % 2 = 1 && p.1 / 2 ^ 8 % 256 = n with
  | some e => if e.2.isEmpty then q1 else Var.takeAll (genVars (opcOf q.f)) e.2 q1
  | .none =>
    let n1 := if opcOf q.f = 5 || opcOf q.f = 6 then 0 else q1.part.n
    if recFull rec && gIen q.f then { q1 with part := { q1.part with first := .none, toks := [], acc := [], seen := false, n := n1 } }
    else q1

/-- What the record of a context gives back to its graph: delay registers, statuses, latches, sections, the walk of the controller,
generators, chains, cameras (R444-R447, R449). -/
def Graph.restore (x : Graph) (rec : List Byte) : Graph :=
  let bs := pageBlocks rec
  { x with
    dreg := (List.range 32).filterMap fun i =>
      let v : Lane := BitVec.ofNat 40 (byteNat rec (64 + 5 * i) 5)
      if v = 0 then none else some (i, v)
    sigs := BitVec.ofNat 64 (byteNat rec 224 8)
    latch := x.latch ||| BitVec.ofNat 64 (byteNat rec 232 8)
    arms := x.arms ||| BitVec.ofNat 64 (byteNat rec 240 8)
    cuts := byteNat rec 48 4
    running := ((List.range (recPages rec)).filter fun i => byteNat rec (257 + 64 * i) 1 / 8 % 2 = 1).map fun i =>
      byteNat rec (256 + 64 * i) 1 % 64
    walk := (List.range (recCtrl rec)).foldl (fun (w : Walking) i =>
      let v := byteNat rec (ctrlAt rec + 8 * i) 8
      w.put i (v % 2 ^ 32, v.testBit 32, v.testBit 33)) []
    gens := x.gens.zipIdx.map fun (p : (Nat × Gen) × Nat) =>
      (p.1.1, { p.1.2.restore rec bs p.1.1 (gensAt rec + 64 * p.2) with win := byteNat rec 44 4 })
    chains := (recChains rec).zipIdx.foldl (fun (m : SMap Chain) (p : Nat × Nat) =>
      let v := byteNat rec (chainsAt rec + 8 * p.2) 8
      m.upd .idle p.1 fun k => { k with
        cur := v % 2 ^ 16
        last := if v / 2 ^ 40 % 2 = 1 then some (v / 2 ^ 16 % 2 ^ 12, v / 2 ^ 28 % 2 ^ 12) else none }) x.chains
    cams := (recCams rec).zipIdx.foldl (fun (m : SMap (List Byte)) (p : Nat × Nat) =>
      m.set Camera.zero p.1 ((rec.drop (camsAt rec + 128 * p.2)).take 128)) [] }

/-- RESTORE_COMPLETE: the planes have been loaded and may be ACTIVE: the record is taken over and the sources resume; an uncorrectable word in
the record ends the graph (R448, R449, R452). -/
def State.restoreComplete (s : State) (g : GraphIx) : State :=
  let x := s.graph g
  match x.saved with
  | none => s
  | some v =>
    let busy := x.loads.any fun l => match l.kind with
      | .restore _ => true
      | _ => false
    if !x.live || x.ctx ≠ .restoring || busy || s.heldOff g then s
    else match if v.bytes.isEmpty then s.undeliverables (addrs v.area v.size) else none with
      | some c => s.endGraph g (statusWord c v.area)
      | none =>
        let rec_ := if v.bytes.isEmpty then s.physBytes v.area v.size else v.bytes
        let s1 := ((s.restoreSites g v rec_).restorePlanes g (planesIn rec_ (recPages rec_))).restoreTiles g (recFull rec_) rec_ (tilesAt rec_)
        (s1.updGraph g fun y => { y.restore rec_ with
          ctx := .running, frozen := false, slice := s.cycle, clean := 0, bare := 0, act := y.act + 1, saved := none }).rebind g

def execRestoreComplete (g : GraphIx) (s : State) : Answer := .next (s.restoreComplete g)

end Sys2Proof.Machine
end

