-- ==== Sys2Proof/Machine/Control.lean ====
section
/-! DEFINITION. Branches and jumps (04 R69-R71). -/

namespace Sys2Proof.Machine

/-- A branch: the target is checked only when it is taken (R69). -/
def State.branch (s : State) (c : Cond) (a b : Reg) (i : BitVec 14) : Answer :=
  if c.holds (s.reg a) (s.reg b) then s.jump s.me (s.me.pc + off14 i) else .next s.skip

def execBeq (a b : Reg) (i : BitVec 14) (s : State) : Answer := s.branch .eq a b i
def execBne (a b : Reg) (i : BitVec 14) (s : State) : Answer := s.branch .ne a b i
def execBlt (a b : Reg) (i : BitVec 14) (s : State) : Answer := s.branch .lt a b i
def execBge (a b : Reg) (i : BitVec 14) (s : State) : Answer := s.branch .ge a b i
def execBltu (a b : Reg) (i : BitVec 14) (s : State) : Answer := s.branch .ltu a b i
def execBgeu (a b : Reg) (i : BitVec 14) (s : State) : Answer := s.branch .geu a b i

/-- JAL: the link is written with the jump, not where it traps (R70). -/
def execJal (d : Reg) (i : BitVec 20) (s : State) : Answer :=
  s.jump (s.me.setReg d (s.me.pc + 4)) (s.me.pc + off20 i)

/-- JALR: the target comes from the old base; bits [1:0] are cleared (R71). -/
def execJalr (d a : Reg) (i : BitVec 12) (s : State) : Answer :=
  s.jump (s.me.setReg d (s.me.pc + 4)) (s.ea a i)

end Sys2Proof.Machine
end

