-- ==== Sys2Proof/Machine/Integer.lean ====
section
/-! DEFINITION. The register and immediate operations of the control core (04 R63-R68). -/

namespace Sys2Proof.Machine

/-- The mould of the register operations: a and b read, one result written, pc + 4 (R63). -/
def State.binary (s : State) (d a b : Reg) (f : Word → Word → Word) : Answer := s.writeNext d (f (s.reg a) (s.reg b))
/-- The mould of the immediate operations (R65). -/
def State.unary (s : State) (d a : Reg) (f : Word → Word) : Answer := s.writeNext d (f (s.reg a))

/-- 1 where a condition holds, else 0. -/
def flag (b : Bool) : Word := if b then 1 else 0

/-- Bits [127:64] of the signed product (R63). -/
def mulHigh (a b : Word) : Word := BitVec.ofInt 64 (a.toInt * b.toInt / 2 ^ 64)
/-- Bits [127:64] of the unsigned product (R63). -/
def mulHighU (a b : Word) : Word := BitVec.ofNat 64 (a.toNat * b.toNat / 2 ^ 64)
/-- The signed quotient; the rows of R64 in order. -/
def divS (a b : Word) : Word :=
  if b = 0 then -1 else if a = BitVec.ofNat 64 (2 ^ 63) ∧ b = -1 then a else BitVec.ofInt 64 (a.toInt.tdiv b.toInt)
/-- The unsigned quotient (R64). -/
def divU (a b : Word) : Word := if b = 0 then -1 else BitVec.ofNat 64 (a.toNat / b.toNat)
/-- The signed remainder (R64). -/
def remS (a b : Word) : Word :=
  if b = 0 then a else if a = BitVec.ofNat 64 (2 ^ 63) ∧ b = -1 then 0 else BitVec.ofInt 64 (a.toInt.tmod b.toInt)
/-- The unsigned remainder (R64). -/
def remU (a b : Word) : Word := if b = 0 then a else BitVec.ofNat 64 (a.toNat % b.toNat)
/-- The count of a register shift: b[5:0] (R63). -/
def shiftCount (b : Word) : Nat := b.toNat % 64
/-- The smaller signed value; a where they are equal (R63, R80). -/
def minS (a b : Word) : Word := if a.toInt ≤ b.toInt then a else b
/-- The larger signed value; a where they are equal (R63, R80). -/
def maxS (a b : Word) : Word := if a.toInt ≥ b.toInt then a else b
/-- Leading zero bits from bit 63 down; 64 for 0 (R68). -/
def leadingZeros (a : Word) : Nat := ((List.range 64).takeWhile fun i => !a.getLsbD (63 - i)).length
/-- One bits (R68). -/
def oneBits (a : Word) : Nat := ((List.range 64).filter fun i => a.getLsbD i).length

def execAdd (d a b : Reg) (s : State) : Answer := s.binary d a b (· + ·)
def execSub (d a b : Reg) (s : State) : Answer := s.binary d a b (· - ·)
def execMul (d a b : Reg) (s : State) : Answer := s.binary d a b (· * ·)
def execMulh (d a b : Reg) (s : State) : Answer := s.binary d a b mulHigh
def execMulhu (d a b : Reg) (s : State) : Answer := s.binary d a b mulHighU
def execDiv (d a b : Reg) (s : State) : Answer := s.binary d a b divS
def execDivu (d a b : Reg) (s : State) : Answer := s.binary d a b divU
def execRem (d a b : Reg) (s : State) : Answer := s.binary d a b remS
def execRemu (d a b : Reg) (s : State) : Answer := s.binary d a b remU
def execAnd (d a b : Reg) (s : State) : Answer := s.binary d a b (· &&& ·)
def execOr (d a b : Reg) (s : State) : Answer := s.binary d a b (· ||| ·)
def execXor (d a b : Reg) (s : State) : Answer := s.binary d a b (· ^^^ ·)
def execShl (d a b : Reg) (s : State) : Answer := s.binary d a b fun x y => x <<< shiftCount y
def execShr (d a b : Reg) (s : State) : Answer := s.binary d a b fun x y => x >>> shiftCount y
def execSra (d a b : Reg) (s : State) : Answer := s.binary d a b fun x y => x.sshiftRight (shiftCount y)
def execSlt (d a b : Reg) (s : State) : Answer := s.binary d a b fun x y => flag (x.slt y)
def execSltu (d a b : Reg) (s : State) : Answer := s.binary d a b fun x y => flag (x.ult y)
def execMin (d a b : Reg) (s : State) : Answer := s.binary d a b minS
def execMax (d a b : Reg) (s : State) : Answer := s.binary d a b maxS
def execAddi (d a : Reg) (i : BitVec 12) (s : State) : Answer := s.unary d a (· + imm12 i)
def execAndi (d a : Reg) (i : BitVec 12) (s : State) : Answer := s.unary d a (· &&& imm12 i)
def execOri (d a : Reg) (i : BitVec 12) (s : State) : Answer := s.unary d a (· ||| imm12 i)
def execXori (d a : Reg) (i : BitVec 12) (s : State) : Answer := s.unary d a (· ^^^ imm12 i)
def execSlti (d a : Reg) (i : BitVec 12) (s : State) : Answer := s.unary d a fun x => flag (x.slt (imm12 i))
def execShli (d a : Reg) (n : BitVec 6) (s : State) : Answer := s.unary d a (· <<< shamt n)
def execShri (d a : Reg) (n : BitVec 6) (s : State) : Answer := s.unary d a (· >>> shamt n)
def execSrai (d a : Reg) (n : BitVec 6) (s : State) : Answer := s.unary d a fun x => x.sshiftRight (shamt n)
def execLui (d : Reg) (i : BitVec 20) (s : State) : Answer := s.writeNext d (imm20u i)
def execPcrel (d : Reg) (i : BitVec 20) (s : State) : Answer := s.writeNext d (s.me.pc + imm20u i)
def execClz (d a : Reg) (s : State) : Answer := s.unary d a fun x => BitVec.ofNat 64 (leadingZeros x)
def execPopc (d a : Reg) (s : State) : Answer := s.unary d a fun x => BitVec.ofNat 64 (oneBits x)

end Sys2Proof.Machine
end

