-- ==== Sys2Proof/Machine/Regs.lean ====
section
/-! DEFINITION. CRR and CRW, the control registers and the effects of writing them (01 R14-R17; 03 R54; 11 R231; 12 R260,
R266; 13 R274; 16 R331; 23 R412, R416, R423; 25 R436). -/

namespace Sys2Proof.Machine

/-! ### Reading (R14, R423) -/

/-- The value of a control register; none where no chapter's table assigns the number (R15). -/
def State.readCr (s : State) (n : Nat) : Option Word :=
  let k := s.me
  match n with
  | 0x00 => some k.status
  | 0x01 => some k.tvec
  | 0x02 => some k.tcause
  | 0x03 => some k.tval
  | 0x04 => some k.epc
  | 0x05 => some k.clock
  | 0x06 => some k.quantum
  | 0x07 => some (BitVec.ofNat 64 s.cur.val)
  | 0x08 => some k.cmod
  | 0x09 => some s.astab
  | 0x0A => some (k.asid.setWidth 64)
  | 0x0B => some 0
  | 0x0C => some k.cvtev
  | 0x0D => some s.bartab
  | 0x0E => some k.frec
  | 0x0F => some 0
  | 0x10 => some (k.drainb.setWidth 64)
  | 0x11 => some s.ctxtab
  | _ => none

/-- TVAL of 0xA1 and 0xA2 (R15). -/
def crTval (c : BitVec 12) : Word := c.setWidth 64

/-- CRR (R15, R423). -/
def execCrr (d : Reg) (c : BitVec 12) (s : State) : Answer := match s.readCr c.toNat with
  | some v => s.writeNext d v
  | none => s.trap 0xA1 (crTval c)

/-! ### Effects of a write -/

/-- A write to CLOCK holds from the next cycle on (R16). -/
def State.writeClock (s : State) (v : Word) : State := s.setMe { s.me with clockNext := some v }
/-- A write to QUANTUM: bits [31:0], not below 16 (R231). -/
def State.writeQuantum (s : State) (v : Word) : State := s.setMe { s.me with quantum := BitVec.ofNat 64 (max 16 (field v 0 32)) }
/-- A write to DRAINB: bits [15:0], 1 for 0 (R436). -/
def State.writeDrainb (s : State) (v : Word) : State :=
  s.setMe { s.me with drainb := BitVec.ofNat 16 (max 1 (field v 0 16)) }
/-- A write to TINV: the core waits for the invalidation to complete (R266). -/
def State.writeTinv (s : State) (v : Word) : State := s.setMe { s.me with wait := .tinv v }

/-- The writable fields of the other registers (R14, R54, R260, R274, R412). -/
def Core.writeCr (k : Core) (n : Nat) (v : Word) : Core := match n with
  | 0x00 => { k with status := BitVec.ofNat 64 (field v 0 5) }
  | 0x01 => { k with tvec := align4 v }
  | 0x02 => { k with tcause := BitVec.ofNat 64 (field v 0 9) }
  | 0x03 => { k with tval := v }
  | 0x04 => { k with epc := align4 v }
  | 0x08 => { k with cmod := BitVec.ofNat 64 (field v 0 32) }
  | 0x0A => { k with asid := BitVec.ofNat 8 (field v 0 8) }
  | 0x0C => { k with cvtev := v }
  | 0x0E => { k with frec := BitVec.ofNat 64 (field v 8 44 * 2 ^ 8) }
  | _ => k

/-- What a GCTL action does to a graph; none where it is no action or the graph does not allow it (R416). -/
def State.gctl (s : State) (g : GraphIx) (action : Nat) : Option State := match action with
  | 0 => s.gctlResume g
  | 1 => s.gctlEnd g
  | 2 => s.gctlDrop g
  | 3 => s.gctlNext g
  | _ => none

/-- A CRW to GCTL: 0x83 for a stale handle, 0x8B where the action is none of that graph's (R237, R416). -/
def State.crwGctl (s : State) (v : Word) : Answer := match s.byHandle (BitVec.ofNat 64 (field v 0 16)) with
  | none => s.trap 0x83 v
  | some g => match s.gctl g (field v 16 4) with
    | none => s.trap 0x8B v
    | some t => .next t.skip

/-- CRW: the number first, then the mode, then the effect (R15, R59, R423). A CRW to TINV ends with TINV_COMPLETE. -/
def execCrw (a : Reg) (c : BitVec 12) (s : State) : Answer :=
  let v := s.reg a
  let n := c.toNat
  if (s.readCr n).isNone then s.trap 0xA1 (crTval c)
  else if n = 0x07 || (n ≠ 0x08 && !s.me.sup) then s.trap 0xA2 (crTval c)
  else match n with
    | 0x05 => .next (s.writeClock v).skip
    | 0x06 => .next (s.writeQuantum v).skip
    | 0x09 => .next (s.writeAstab v).skip
    | 0x0B => .next (s.writeTinv v)
    | 0x0D => .next (s.writeBartab v).skip
    | 0x0F => s.crwGctl v
    | 0x10 => .next (s.writeDrainb v).skip
    | 0x11 => .next (s.writeCtxtab v).skip
    | _ => .next (s.setMe (s.me.writeCr n v)).skip

def execClockWrite (v : Word) (s : State) : Answer := .next (s.writeClock v)
def execQuantumWrite (v : Word) (s : State) : Answer := .next (s.writeQuantum v)
def execAstabWrite (v : Word) (s : State) : Answer := .next (s.writeAstab v)
def execTinvWrite (v : Word) (s : State) : Answer := .next (s.writeTinv v)
def execDrainbWrite (v : Word) (s : State) : Answer := .next (s.writeDrainb v)

/-! ### The end of an invalidation (R266) -/

/-- The translations of a cache that a request leaves. -/
def keepTlb (v : Word) (l : List TlbEntry) : List TlbEntry := l.filter fun t => !t.matchesTinv v

/-- Every matching translation leaves every TLB, micro-TLB and translation cache of the module (R266). -/
def State.invalidate (s : State) (v : Word) : State :=
  { s with
    cores := s.cores.mapV .reset fun _ k => { k with itlb := keepTlb v k.itlb, dtlb := keepTlb v k.dtlb }
    micro := s.micro.mapV [] fun _ l => keepTlb v l
    tcs := s.tcs.mapV [] fun _ l => keepTlb v l }

/-- TINV_COMPLETE: the invalidation that a core asked for is done, and its CRW completes (R266). -/
def execTinvComplete (c : CoreIx) (s : State) : Answer := match (s.core c).wait with
  | .tinv v => .next ((s.invalidate v).updCore c fun k => { k.setPc (k.pc + 4) with wait := .none })
  | _ => .next s

/-! ### PAGE_WALK (R263, R264) -/

/-- PAGE_WALK: a walk for a core in an address space completes: a leaf that allows the access enters its TLB; a walk that
faults leaves nothing behind (R263, R264). -/
def execPageWalk (c : CoreIx) (asid : BitVec 8) (va : BitVec 52) (kind : Access) (s : State) : Answer :=
  match s.walk asid va.toNat with
  | .fault _ => .next s
  | .leaf lvl p => .next (s.updCore c fun k => k.cache kind (mkTlb asid va.toNat lvl p))

end Sys2Proof.Machine
end

