-- ==== Sys2Proof/Machine/Service.lean ====
section
/-! DEFINITION. Dvorrok's mailbox commands, checkpoint and restore (29 R470-R474, R480, R482). -/

namespace Sys2Proof.Config

/-- The bytes of the image that the safe tier holds of a checkpoint: the spec gives the image no layout (R480, log entry 48). -/
opaque safeImage : Machine.Snapshot → List Byte

/-- The checkpoint whose image, with its digest, another module's READSAFE left in host memory; none where the digest or the
device id is wrong (R471, R480, log entry 48). -/
opaque foreignImage : (Nat → Byte) → Option Machine.Snapshot

end Sys2Proof.Config

namespace Sys2Proof.Machine

/-! ### Requests and responses (R471, R472) -/

/-- The response to the request of a mailbox: the command, a status, data from byte 8 on, a second response. -/
def State.respond (s : State) (m : Mailbox) (status : Byte) (data : List Byte) (second : Option (List Byte) := none) : State :=
  let b := s.dv.box m
  let rsp := ([b.req.getD 0 0, status] ++ List.replicate 6 (0 : Byte) ++ data ++ List.replicate 64 0).take 64
  { s with dv := { s.dv.setBox m { b with rsp := rsp, rsp2 := second, busy := false } with order := s.dv.order.erase m } }

/-- Bytes of a request as a number. -/
def State.operand (s : State) (m : Mailbox) (o n : Nat) : Nat := byteNat (s.dv.box m).req o n
/-- The command of a mailbox's request. -/
def State.command (s : State) (m : Mailbox) : Nat := s.operand m 0 1

/-- Whether Dvorrok handles a request of a mailbox now: it is the first in arrival order and names the command (R471). -/
def State.handles (s : State) (m : Mailbox) (code : Nat) : Bool :=
  s.dv.order.head? = some m && (s.dv.box m).busy && s.command m = code

/-- A command that is answered at once: status 3 while a checkpoint or a READSAFE is under way, unless it is exempt (R472). -/
def State.serve (s : State) (m : Mailbox) (code : Nat) (exempt : Bool) (k : State) : State :=
  if !s.handles m code then s
  else if s.dv.service ≠ .idle && !exempt then s.respond m 3 []
  else k

/-- A command that is no command of R471: status 2, and 3 while a checkpoint or a READSAFE is under way (R472). -/
def State.unknownCommand (s : State) : State := match s.dv.order with
  | m :: _ => if s.command m = 0 || 0x0B < s.command m then s.respond m (if s.dv.service = .idle then 2 else 3) [] else s
  | [] => s

/-- KEYPUB: the public key in a second response (R471, R472). -/
def execKeypub (m : Mailbox) (s : State) : Answer :=
  .next (s.serve m 0x01 true (s.respond m 0 [] (some (beBytes 64 Config.publicKey.toNat))))

/-- SETTIME: refused where the time would run backward (R471). -/
def State.setTime (s : State) (m : Mailbox) : State :=
  let v := s.operand m 8 8
  if v < s.dv.time.toNat then s.respond m 1 []
  else ({ s with dv := { s.dv with time := BitVec.ofNat 64 v, timeFrac := 0 } } : State).respond m 0 []

def execSettime (m : Mailbox) (s : State) : Answer := .next (s.serve m 0x02 false (s.setTime m))

/-- STAMPCFG: refused after LOCK, for a range not in units of 4 KiB or outside the host window (R471); an index above 7 too
(log entry 49). -/
def State.stampCfg (s : State) (m : Mailbox) : State :=
  let base := s.operand m 8 8
  let len := s.operand m 16 8
  let i := s.operand m 24 1
  if s.dv.locked || base % 4096 ≠ 0 || len % 4096 ≠ 0 || 7 < i || base < hostBase || domBase < base + len then s.respond m 1 []
  else ({ s with dv := { s.dv with ranges := s.dv.ranges.set (0, 0) i (base, len) } } : State).respond m 0 []

def execStampcfg (m : Mailbox) (s : State) : Answer := .next (s.serve m 0x03 false (s.stampCfg m))

/-- RINGCFG: refused after LOCK; a LOG2N outside 4 to 20 is refused too (R471, log entry 49). -/
def State.ringCfg (s : State) (m : Mailbox) : State :=
  let n := s.operand m 16 1
  if s.dv.locked || n < 4 || 20 < n then s.respond m 1 []
  else ({ s with dv := { s.dv with
    ringBase := s.operand m 8 8 / 128 * 128 % 2 ^ 52, ringLog := n, ringCtl := s.operand m 24 8 / 64 * 64 % 2 ^ 52 } } : State).respond m 0 []

def execRingcfg (m : Mailbox) (s : State) : Answer := .next (s.serve m 0x04 false (s.ringCfg m))

/-- LOCK: lasts until cold reset (R471). -/
def State.lockStamp (s : State) (m : Mailbox) : State :=
  if s.dv.locked then s.respond m 1 [] else ({ s with dv := { s.dv with locked := true } } : State).respond m 0 []

def execLock (m : Mailbox) (s : State) : Answer := .next (s.serve m 0x05 false (s.lockStamp m))

/-- The counts of SPAREQ, 32 bits each (R472). -/
def Repair.counts (r : Repair) : List Byte :=
  let sum := fun (l : SMap Nat) => l.foldl (fun n p => n + p.2) 0
  ([r.regions.length + r.spareUsed.length, 256 - r.spareUsed.length, sum r.rows, r.channels.length, sum r.lanes,
    r.slices.length] : List Nat).flatMap (leBytes 4)

def execSpareq (m : Mailbox) (s : State) : Answer := .next (s.serve m 0x06 true (s.respond m 0 s.repair.counts))

/-- MKEYSET: refused after LOCK (R471, R473). -/
def State.mkeySet (s : State) (m : Mailbox) : State :=
  if s.dv.locked then s.respond m 1 []
  else ({ s with dv := { s.dv with mkey := BitVec.ofNat 64 (s.operand m 8 8) } } : State).respond m 0 []

def execMkeyset (m : Mailbox) (s : State) : Answer := .next (s.serve m 0x0A false (s.mkeySet m))

/-- MKEYGET: refused after LOCK, else the key in use in bytes 8-15 (R471, R473). -/
def State.mkeyGet (s : State) (m : Mailbox) : State :=
  if s.dv.locked then s.respond m 1 [] else s.respond m 0 (leBytes 8 s.dv.mkey.toNat)

def execMkeyget (m : Mailbox) (s : State) : Answer := .next (s.serve m 0x0B false (s.mkeyGet m))

/-! ### CHECKPOINT (R480) -/

/-- Whether a graph is one that a checkpoint cuts: resident, running, with its planes in place. -/
def Graph.cuttable (x : Graph) : Bool := x.live && x.started && !x.away

/-- A checkpoint begins: the distributor stops, and every running graph freezes (R442, R480). -/
def State.beginCheckpoint (s : State) (m : Option Mailbox) (stop : Bool) : State :=
  s.graphIxs.foldl (fun t g => if (t.graph g).cuttable then t.updGraph g fun x => { x with frozen := true } else t)
    { s with dv := { s.dv with
        service := .saving m stop
        order := match m with | some m => s.dv.order.erase m | none => s.dv.order } }

/-- CHECKPOINT: refused while one is under way; it waits for a READSAFE (R471, R472). -/
def State.checkpoint (s : State) (m : Mailbox) : State :=
  if !s.handles m 0x07 then s
  else match s.dv.service with
    | .idle => s.beginCheckpoint (some m) false
    | .saving _ _ => s.respond m 1 []
    | .reading _ => s

def execCheckpoint (m : Mailbox) (s : State) : Answer := .next (s.checkpoint m)

/-- One running graph cut into the checkpoint (R442, R480). -/
def State.cutInto (s : State) (g : GraphIx) : State :=
  let x := s.graph g
  if !x.cuttable then s
  else
    let s1 := (s.emptyLog g).releaseClones g
    let (v, bytes) := s1.contextOf g true 0
    (s1.updGraph g fun y => { y with cuts := y.cuts + 1, saved := some { v with bytes := bytes } }).leaveRegions g

/-- What a checkpoint keeps of the module. -/
def State.snapshot (s : State) : Snapshot :=
  { cores := s.cores, mem := s.mem.filter fun p => p.1 < devBytes, astab := s.astab, bartab := s.bartab, ctxtab := s.ctxtab
    qtable := s.block.qtable, modnum := s.block.modnum, sites := s.sites, tiles := s.tiles, regions := s.regions, graphs := s.graphs, dist := s.dist }

/-- Whether a core stands between two instructions: it does not wait for the answer to an atomic (R480). -/
def Core.between (k : Core) : Bool := match k.wait with
  | .atomic _ => false
  | _ => true

/-- Whether every running graph has received its replies and can drain its pockets, and every core stands between two
instructions (R480). -/
def State.readyToSave (s : State) : Bool :=
  (s.cores.all fun p => p.2.between) &&
  s.graphIxs.all fun g => let x := s.graph g
    !x.cuttable || (x.settled && ((s.emptyLog g).graph g).pocket.isEmpty)

/-- CHECKPOINT_DONE: graphs are cut, cores stopped, the image stands in the safe tier; a shutdown stops the module (R480, R481). -/
def State.checkpointDone (s : State) : State := match s.dv.service with
  | .saving m stop =>
    if !s.readyToSave then s
    else
      let s1 := s.graphIxs.foldl State.cutInto s
      let image := s1.snapshot
      let s2 : State := { s1 with
        cores := s1.cores.mapV .reset fun _ k => if k.run = .running then { k with run := .stopped } else k
        dv := { s1.dv with service := .idle, safe := some image, stopped := stop }
        block := if stop then { s1.block with events := s1.block.events ++ [(3, 0)] } else s1.block }
      match m with
      | some m => s2.respond m 0 []
      | none => s2
  | _ => s

def execCheckpointDone (s : State) : Answer := .next s.checkpointDone

/-! ### RESTORE and READSAFE (R471, R472, R480) -/

/-- The checkpoint whose image stands in host memory from an address on: the one this module holds, or another module's,
which is one that a module can have (log entry 48). -/
def State.imageIn (s : State) (a : Nat) : Option Snapshot :=
  let mine := s.dv.safe.bind fun i =>
    let bs := Config.safeImage i
    if s.physBytes a bs.length = bs then some i else none
  match mine with
  | some i => some i
  | none => (Config.foreignImage fun o => s.byteAt (s.key (a + o))).filter Snapshot.legal

/-- The module as a checkpoint has it: device memory, registers, graphs, which wait for regions, and the cores at their saved pc
(R480). -/
def State.adopt (s : State) (i : Snapshot) : State :=
  { s with
    mem := i.mem.filter (fun p => p.1 < devBytes) ++ s.mem.filter fun p => !decide (p.1 < devBytes)
    cores := i.cores, astab := i.astab, bartab := i.bartab, ctxtab := i.ctxtab
    block := { s.block with qtable := i.qtable, modnum := i.modnum }, tcs := [], micro := []
    sites := i.sites, tiles := i.tiles, regions := i.regions, graphs := i.graphs, dist := i.dist, agenda := [] }

/-- RESTORE: refused where no image of the right digest and device stands there (R471). -/
def State.restore (s : State) (m : Mailbox) : State :=
  if !s.handles m 0x08 || s.dv.service ≠ .idle then s
  else
    let a := s.operand m 8 8
    match if window a = .host then s.imageIn a else none with
    | none => s.respond m 1 []
    | some i => (s.adopt i).respond m 0 []

def execRestore (m : Mailbox) (s : State) : Answer := .next (s.restore m)

/-- READSAFE: refused where no checkpoint is held, else the copy begins (R471, R472). -/
def State.readsafe (s : State) (m : Mailbox) : State :=
  if !s.handles m 0x09 || s.dv.service ≠ .idle then s
  else if s.dv.safe.isNone then s.respond m 1 []
  else { s with dv := { s.dv with service := .reading m, order := s.dv.order.erase m } }

def execReadsafe (m : Mailbox) (s : State) : Answer := .next (s.readsafe m)

/-- READSAFE_DONE: the bytes stand in host memory; the response follows (R472). -/
def State.readsafeDone (s : State) : State := match s.dv.service, s.dv.safe with
  | .reading m, some i =>
    let bs := ((Config.safeImage i).drop (s.operand m 16 8)).take (s.operand m 24 8)
    let a := s.operand m 8 8
    let ps := ((addrs a bs.length).zip bs).filter fun p => window p.1 = .host
    let s1 := s.storeBytes (ps.map (·.1)) (ps.map (·.2))
    ({ s1 with dv := { s1.dv with service := .idle } } : State).respond m 0 []
  | _, _ => s

def execReadsafeDone (s : State) : Answer := .next s.readsafeDone

end Sys2Proof.Machine
end

