-- ==== Sys2Proof/Machine/Reliability.lean ====
section
/-! DEFINITION. Soft errors, scrubs, retirement and sparing, links, heat, the host's accesses, the clock cycle and the resets
of the module (01 R25; 05 R93; 14 R332; 28 R463-R466; 29 R473, R477-R481). -/

namespace Sys2Proof.Machine

/-! ### Soft errors and scrubs (R477) -/

/-- An error corrected and counted. -/
def State.corrected (s : State) : State := { s with repair := { s.repair with corrected := s.repair.corrected + 1 } }

/-- An uncorrectable word of storage: the cause its consumer meets. -/
def State.markWord (s : State) (word : Nat) (c : Byte) : State :=
  { s with repair := { s.repair with marks := s.repair.marks.set 0 word c } }

/-- A soft error: a correctable one in a word is corrected; a frame's shows at the scrub (R477). -/
def execSoftError (t : SoftTarget) (uncorrectable : Bool) (s : State) : Answer :=
  .next (match t with
  | .dram w => if uncorrectable then s.markWord w 0xB1 else s.corrected
  | .sram w => if uncorrectable then s.markWord w 0xB0 else s.corrected
  | .tile e w => if uncorrectable then
      { s with repair := { s.repair with badTiles := s.repair.badTiles ++ [({ e with plane := 0 }, w)] } } else s.corrected
  | .pocket g n => if uncorrectable then s.updGraph g fun x => { x with pocket := x.pocket.modify n fun e => { e with kind := .spoiled e.last } }
      else s.corrected
  | .log g n => if uncorrectable then s.updGraph g fun x => { x with logged := x.logged.modify n fun e => ⟨e.win, .spoiled (logSize [e])⟩ }
      else s.corrected
  | .register c r => if uncorrectable then s.updCore c fun k => { k with spoiled := if r = 0 || k.spoiled.contains r then k.spoiled else r :: k.spoiled }
      else s.corrected
  | .frame e l => { s with repair := { s.repair with badFrames := s.repair.badFrames ++ [(e, l, uncorrectable)] } })

/-- The fault of an uncorrectable frame (R413, R434). -/
def State.frameFault (s : State) (e : Elt) : FaultInfo :=
  { FaultInfo.none with cause := 0xB2, ocause := 0xB2, imp := true, origin := 3, loc := s.locOf e }

/-- One damaged frame as the scrub meets it: rewritten, or, in a plane of a running graph, a fault (R477). -/
def State.scrubFrame (s : State) (b : Elt × Fin 3 × Bool) : State :=
  if !b.2.2 then ({ s with repair := { s.repair with badFrames := s.repair.badFrames.erase b } } : State).corrected
  else match s.ownerOf b.1 with
    | none => { s with repair := { s.repair with badFrames := s.repair.badFrames.erase b } }
    | some g =>
      let x := s.graph g
      if x.started && x.st ≠ .held && ((x.raised ++ x.noted).all fun i => i.cause ≠ 0xB2) then s.raise g (s.frameFault b.1) else s

/-- CONFIG_SCRUB (R477). -/
def execConfigScrub (s : State) : Answer := .next (s.repair.badFrames.foldl State.scrubFrame s)

/-- A CXL event record: its kind and the unit it names. Kind 1 is a word the patrol scrub found, 2 a unit without a spare,
3 the shutdown (R465, R477, R479, R481). -/
def State.logEvent (s : State) (kind unit : Nat) : State := { s with block := { s.block with events := s.block.events ++ [(kind, unit)] } }

/-- PATROL_SCRUB: an uncorrectable word of DRAM is logged; nothing is raised (R477). -/
def execPatrolScrub (s : State) : Answer :=
  .next (s.repair.marks.foldl (fun t p => if p.2 = 0xB1 then t.logEvent 1 p.1 else t) s)

/-- LINK_FLIT_REPLAY: replayed and counted (R477). -/
def execLinkFlitReplay (_port : Fin 8) (s : State) : Answer :=
  .next { s with links := { s.links with replays := s.links.replays + 1 } }

/-! ### Retirement (R478, R479) -/

/-- The class of a unit has no spare left: DEVSTAT.REPL, 0xB5 at core 0 of die 0, an event; the value in TVAL is left open. -/
def State.spareOut (s : State) (unit : Nat) : State :=
  let (n, s1) := s.choose (2 ^ 64)
  let s2 := s1.logEvent 2 unit
  ({ s2 with block := { s2.block with repl := true } } : State).post 0 (plainCause 0xB5 true (BitVec.ofNat 64 n))

/-- Whether no plane of a region is owned. -/
def Region.unowned (r : Region) : Bool := r.planes.all fun p => p.2.owner.isNone

/-- The spare of a core takes the number of a retired region of which no plane is owned (R84, R478). -/
def State.takeSpare (s : State) (c : CoreIx) (r : Fin 16) : State :=
  if !s.repair.regions.contains (c, r) || s.repair.spareUsed.contains c || !(s.region c r).unowned then s
  else
    let s1 := ([0, 1, 2, 3] : List (Fin 4)).foldl (fun (t : State) i => t.clearPlane ⟨c, r, 0, i⟩) s
    let s2 := (List.range 16).foldl (fun (t : State) i =>
      { t with tiles := t.tiles.set [] (siteKey c r (Fin.ofNat 16 i)) [] }) (s1.setRegion c r .reset)
    { s2 with repair := { s2.repair with
        regions := s2.repair.regions.erase (c, r), spareUsed := s2.repair.spareUsed ++ [c]
        badTiles := s2.repair.badTiles.filter fun b => !(b.1.core = c && b.1.region = r) } }

/-- A region: excluded at once; its spare takes the number when no plane is owned, now or in a later cycle (R84, R478). -/
def State.retireRegion (s : State) (c : CoreIx) (r : Fin 16) : State :=
  let p := s.repair
  let fresh := !p.regions.contains (c, r)
  let s1 : State := if fresh then { s with repair := { p with regions := p.regions ++ [(c, r)] } } else s
  if fresh && (p.spareUsed.contains c || p.regions.any fun q => q.1 = c) then s1.spareOut (regionKey c r)
  else s1.takeSpare c r

/-- Whether a checkpoint is being taken: no region is retired meanwhile (R482). -/
def State.checkpointing (s : State) : Bool := match s.dv.service with
  | .saving _ _ => true
  | _ => false

/-- The spares of retired regions whose planes have become free since (R478). -/
def State.takeSpares (s : State) : State :=
  if s.checkpointing then s else s.repair.regions.foldl (fun t q => t.takeSpare q.1 q.2) s

/-- UNIT_RETIRE: by class; a region's waits for a checkpoint to end (R478, R479, R482). -/
def State.retire (s : State) (u : RetireUnit) : State :=
  let p := s.repair
  match u with
  | .region c r =>
    if s.checkpointing then { s with inputs := s.inputs ++ [.unitRetire u] } else s.retireRegion c r
  | .dramRow c =>
    if p.rows.get 0 c.val < 1024 then { s with repair := { p with rows := p.rows.set 0 c.val (p.rows.get 0 c.val + 1) } }
    else s.spareOut c.val
  | .channel c =>
    if p.channels.any fun d => d.val / 8 = c.val / 8 then
      ({ s with repair := { p with offline := p.offline ++ [c] } } : State).spareOut c.val
    else { s with repair := { p with channels := p.channels ++ [c] } }
  | .linkLane i =>
    if p.lanes.get 0 i.val < 2 then
      { s with repair := { p with lanes := p.lanes.set 0 i.val (p.lanes.get 0 i.val + 1) }
               links := { s.links with spared := s.links.spared ||| ((1 : BitVec 8) <<< i.val) } }
    else s.spareOut i.val
  | .slice c j => if p.slices.contains (c, j) then s else { s with repair := { p with slices := p.slices ++ [(c, j)] } }

def execUnitRetire (u : RetireUnit) (s : State) : Answer := .next (s.retire u)

/-! ### Ports and heat (R463, R481) -/

def execPortDown (port : Fin 8) (s : State) : Answer :=
  .next { s with links := { s.links with up := s.links.up &&& ~~~((1 : BitVec 8) <<< port.val) } }
/-- PORT_UP: LINKSTAT shows the port up, and whether it runs on spared lanes (R459). -/
def execPortUp (port : Fin 8) (s : State) : Answer :=
  let bit : BitVec 8 := 1 <<< port.val
  .next { s with links := { s.links with
    up := s.links.up ||| bit, spared := if 0 < s.repair.lanes.get 0 port.val then s.links.spared ||| bit else s.links.spared } }
def execThermalThrottle (die : Fin 4) (s : State) : Answer :=
  .next { s with dv := { s.dv with throttle := if s.dv.throttle.contains die then s.dv.throttle else s.dv.throttle ++ [die] } }
def execThermalThrottleEnd (die : Fin 4) (s : State) : Answer :=
  .next { s with dv := { s.dv with throttle := s.dv.throttle.filter (· ≠ die) } }

/-- THERMAL_SHUTDOWN: a checkpoint, after which the module stops (R481). -/
def execThermalShutdown (s : State) : Answer :=
  .next (match s.dv.service with
  | .saving m _ => { s with dv := { s.dv with service := .saving m true } }
  | _ => s.beginCheckpoint none true)

/-! ### The host's accesses to device memory (R332, R466, R474) -/

/-- HOST_MEM_READ: performed at the home slice; it changes nothing of the module (R466). -/
def execHostMemRead (_off _n : Nat) (s : State) : Answer := .next s

/-- HOST_MEM_WRITE: bytes of the interleaved window; those in the line of an active barrier are discarded with 0x2C (R332, R466). -/
def State.hostWrite (s : State) (off : Nat) (bs : List Byte) : State :=
  let ps := ((addrs off bs.length).zip bs).filter fun p => p.1 < devBytes
  let bad := ps.filter fun p => s.activeLine (s.key p.1)
  let ok := ps.filter fun p => !s.activeLine (s.key p.1)
  let s1 := s.storeBytes (ok.map (·.1)) (ok.map (·.2))
  match bad with
  | p :: _ => s1.post 0 (plainCause 0x2C true (BitVec.ofNat 64 p.1))
  | [] => s1

def execHostMemWrite (off : Nat) (bs : List Byte) (s : State) : Answer := .next (s.hostWrite off bs)

/-! ### A clock cycle (R14, R16, R93, R473) -/

/-- Cycles of a second (R481). -/
abbrev cyclesPerSecond : Nat := 1750000000

/-- A core's CLOCK at the end of a cycle: the value written, or one more (R14, R16). A held core's starts anew at its release. -/
def Core.tick (k : Core) : Core :=
  if k.run = .held then k else { k with clock := k.clockNext.getD (k.clock + 1), clockNext := none }

/-- TIME counts seconds (R473). -/
def Dvorrok.tick (d : Dvorrok) : Dvorrok :=
  if d.timeFrac + 1 < cyclesPerSecond then { d with timeFrac := d.timeFrac + 1 } else { d with timeFrac := 0, time := d.time + 1 }

/-- The management firmware submits its next request once its mailbox is free (R472). -/
def Dvorrok.submit (d : Dvorrok) : Dvorrok := match d.script with
  | r :: rest => if d.mgmt.busy then d
    else ({ d with script := rest, mgmt := { d.mgmt with req := (r ++ List.replicate 64 0).take 64 } } : Dvorrok).go .management
  | [] => d

/-- CYCLE: tokens move and slot returns are driven, counters advance; contexts whose regions are free run (R93, R231, R232). -/
def State.tick (s : State) : State :=
  let s1 := s.fabricCycle
  let s2 : State := { s1 with
    cores := s1.cores.mapV .reset fun _ k => k.tick, dv := (s1.dv.tick).submit, cycle := s1.cycle + 1 }
  s2.takeSpares.unknownCommand.startWaiting

def execCycle (s : State) : Answer := .next s.tick

/-! ### Resets (R25, R459, R473) -/

/-- DEVICE_RESET: cores held, device-wide registers 0, graphs gone. Memory, LOCK and TIME, the safe tier and what has been
retired stay (R25, R471, R479, log entry 50). -/
def State.deviceReset (s : State) : State :=
  { State.reset with
    choices := s.choices, inputs := s.inputs, mem := s.mem, links := { s.links with up := 0, spared := 0 }, repair := { s.repair with badFrames := [] }
    losses := s.losses, sent := s.sent, tiles := s.tiles
    dv := { s.dv with service := .idle, order := [], host := .reset, mgmt := .reset, stopped := false } }

def execDeviceReset (s : State) : Answer := .next s.deviceReset

/-- COLD_RESET: a reset at power-on; Dvorrok boots, MKEY is derived, LOCK and the stamp configuration are cleared (R471, R473). -/
def State.coldReset (s : State) : State :=
  let t := s.deviceReset
  { t with dv := { t.dv with
      locked := false, mkey := bootMkey, time := 0, timeFrac := 0, ranges := [], ringBase := 0, ringLog := 0, ringCtl := 0
      throttle := [] } }

def execColdReset (s : State) : Answer := .next s.coldReset

end Sys2Proof.Machine
end

