-- ==== Sys2Proof/Machine/Dispatch.lean ====
section
/-! DEFINITION. One arm per operation or step of the module: each calls its own meaning. -/

namespace Sys2Proof.Machine

def exec (i : Instr) (s : State) : Host.Outcome State Fault Refusal :=
  match i with
  | .add d a b => Sys2Proof.Machine.execAdd d a b s
  | .sub d a b => Sys2Proof.Machine.execSub d a b s
  | .mul d a b => Sys2Proof.Machine.execMul d a b s
  | .mulh d a b => Sys2Proof.Machine.execMulh d a b s
  | .mulhu d a b => Sys2Proof.Machine.execMulhu d a b s
  | .div d a b => Sys2Proof.Machine.execDiv d a b s
  | .divu d a b => Sys2Proof.Machine.execDivu d a b s
  | .rem d a b => Sys2Proof.Machine.execRem d a b s
  | .remu d a b => Sys2Proof.Machine.execRemu d a b s
  | .and d a b => Sys2Proof.Machine.execAnd d a b s
  | .or d a b => Sys2Proof.Machine.execOr d a b s
  | .xor d a b => Sys2Proof.Machine.execXor d a b s
  | .shl d a b => Sys2Proof.Machine.execShl d a b s
  | .shr d a b => Sys2Proof.Machine.execShr d a b s
  | .sra d a b => Sys2Proof.Machine.execSra d a b s
  | .slt d a b => Sys2Proof.Machine.execSlt d a b s
  | .sltu d a b => Sys2Proof.Machine.execSltu d a b s
  | .min d a b => Sys2Proof.Machine.execMin d a b s
  | .max d a b => Sys2Proof.Machine.execMax d a b s
  | .addi d a k => Sys2Proof.Machine.execAddi d a k s
  | .andi d a k => Sys2Proof.Machine.execAndi d a k s
  | .ori d a k => Sys2Proof.Machine.execOri d a k s
  | .xori d a k => Sys2Proof.Machine.execXori d a k s
  | .slti d a k => Sys2Proof.Machine.execSlti d a k s
  | .shli d a n => Sys2Proof.Machine.execShli d a n s
  | .shri d a n => Sys2Proof.Machine.execShri d a n s
  | .srai d a n => Sys2Proof.Machine.execSrai d a n s
  | .lui d k => Sys2Proof.Machine.execLui d k s
  | .pcrel d k => Sys2Proof.Machine.execPcrel d k s
  | .clz d a => Sys2Proof.Machine.execClz d a s
  | .popc d a => Sys2Proof.Machine.execPopc d a s
  | .jal d k => Sys2Proof.Machine.execJal d k s
  | .jalr d a k => Sys2Proof.Machine.execJalr d a k s
  | .cell d a b op => Sys2Proof.Machine.execCell d a b op s
  | .cell3 d a b c => Sys2Proof.Machine.execCell3 d a b c s
  | .beq a b k => Sys2Proof.Machine.execBeq a b k s
  | .bne a b k => Sys2Proof.Machine.execBne a b k s
  | .blt a b k => Sys2Proof.Machine.execBlt a b k s
  | .bge a b k => Sys2Proof.Machine.execBge a b k s
  | .bltu a b k => Sys2Proof.Machine.execBltu a b k s
  | .bgeu a b k => Sys2Proof.Machine.execBgeu a b k s
  | .ldb d a k => Sys2Proof.Machine.execLdb d a k s
  | .ldbu d a k => Sys2Proof.Machine.execLdbu d a k s
  | .ldh d a k => Sys2Proof.Machine.execLdh d a k s
  | .ldhu d a k => Sys2Proof.Machine.execLdhu d a k s
  | .ldw d a k => Sys2Proof.Machine.execLdw d a k s
  | .ldwu d a k => Sys2Proof.Machine.execLdwu d a k s
  | .ldd d a k => Sys2Proof.Machine.execLdd d a k s
  | .stb a b k => Sys2Proof.Machine.execStb a b k s
  | .sth a b k => Sys2Proof.Machine.execSth a b k s
  | .stw a b k => Sys2Proof.Machine.execStw a b k s
  | .std a b k => Sys2Proof.Machine.execStd a b k s
  | .cfgload d a b p => Sys2Proof.Machine.execCfgload d a b p s
  | .cfgdrop a p => Sys2Proof.Machine.execCfgdrop a p s
  | .glaunch d a => Sys2Proof.Machine.execGlaunch d a s
  | .qpush d a q => Sys2Proof.Machine.execQpush d a q s
  | .sigemit a n => Sys2Proof.Machine.execSigemit a n s
  | .sigread d a n => Sys2Proof.Machine.execSigread d a n s
  | .armsec a b => Sys2Proof.Machine.execArmsec a b s
  | .gwait d a => Sys2Proof.Machine.execGwait d a s
  | .fence n => Sys2Proof.Machine.execFence n s
  | .amo d a b o z n => Sys2Proof.Machine.execAmo d a b o z n s
  | .chsend a b e => Sys2Proof.Machine.execChsend a b e s
  | .chrecv d e => Sys2Proof.Machine.execChrecv d e s
  | .chpoll d e => Sys2Proof.Machine.execChpoll d e s
  | .barinit a b => Sys2Proof.Machine.execBarinit a b s
  | .bararr a => Sys2Proof.Machine.execBararr a s
  | .barwait d a => Sys2Proof.Machine.execBarwait d a s
  | .barinv a => Sys2Proof.Machine.execBarinv a s
  | .trap c => Sys2Proof.Machine.execTrap c s
  | .tret => Sys2Proof.Machine.execTret s
  | .waiti => Sys2Proof.Machine.execWaiti s
  | .brk c => Sys2Proof.Machine.execBrk c s
  | .crr d c => Sys2Proof.Machine.execCrr d c s
  | .crw a c => Sys2Proof.Machine.execCrw a c s
  | .hdlset a e => Sys2Proof.Machine.execHdlset a e s
  | .clockWrite v => Sys2Proof.Machine.execClockWrite v s
  | .quantumWrite v => Sys2Proof.Machine.execQuantumWrite v s
  | .astabWrite v => Sys2Proof.Machine.execAstabWrite v s
  | .tinvWrite v => Sys2Proof.Machine.execTinvWrite v s
  | .tinvComplete core => Sys2Proof.Machine.execTinvComplete core s
  | .drainbWrite v => Sys2Proof.Machine.execDrainbWrite v s
  | .gctlResume g => Sys2Proof.Machine.execGctlResume g s
  | .gctlEnd g => Sys2Proof.Machine.execGctlEnd g s
  | .gctlDrop g => Sys2Proof.Machine.execGctlDrop g s
  | .gctlNext g => Sys2Proof.Machine.execGctlNext g s
  | .fadd e => Sys2Proof.Machine.execFadd e s
  | .fsub e => Sys2Proof.Machine.execFsub e s
  | .fmul e => Sys2Proof.Machine.execFmul e s
  | .ffma e => Sys2Proof.Machine.execFfma e s
  | .fmax e => Sys2Proof.Machine.execFmax e s
  | .fmin e => Sys2Proof.Machine.execFmin e s
  | .frcp e => Sys2Proof.Machine.execFrcp e s
  | .frsq e => Sys2Proof.Machine.execFrsq e s
  | .fexp2 e => Sys2Proof.Machine.execFexp2 e s
  | .flog2 e => Sys2Proof.Machine.execFlog2 e s
  | .fscl e => Sys2Proof.Machine.execFscl e s
  | .fcmp e => Sys2Proof.Machine.execFcmp e s
  | .fsel e => Sys2Proof.Machine.execFsel e s
  | .fcvt e => Sys2Proof.Machine.execFcvt e s
  | .iadd e => Sys2Proof.Machine.execIadd e s
  | .isub e => Sys2Proof.Machine.execIsub e s
  | .imul e => Sys2Proof.Machine.execImul e s
  | .imad e => Sys2Proof.Machine.execImad e s
  | .iand e => Sys2Proof.Machine.execIand e s
  | .ior e => Sys2Proof.Machine.execIor e s
  | .ixor e => Sys2Proof.Machine.execIxor e s
  | .ishl e => Sys2Proof.Machine.execIshl e s
  | .ishr e => Sys2Proof.Machine.execIshr e s
  | .icmp e => Sys2Proof.Machine.execIcmp e s
  | .imin e => Sys2Proof.Machine.execImin e s
  | .imax e => Sys2Proof.Machine.execImax e s
  | .lbcast e => Sys2Proof.Machine.execLbcast e s
  | .lperm e => Sys2Proof.Machine.execLperm e s
  | .lred e => Sys2Proof.Machine.execLred e s
  | .lscan e => Sys2Proof.Machine.execLscan e s
  | .lshift e => Sys2Proof.Machine.execLshift e s
  | .accum e => Sys2Proof.Machine.execAccum e s
  | .runmax e => Sys2Proof.Machine.execRunmax e s
  | .count e => Sys2Proof.Machine.execCount e s
  | .gen e => Sys2Proof.Machine.execGen e s
  | .const e => Sys2Proof.Machine.execConst e s
  | .delay e => Sys2Proof.Machine.execDelay e s
  | .rng e => Sys2Proof.Machine.execRng e s
  | .cumsum e => Sys2Proof.Machine.execCumsum e s
  | .icdf e => Sys2Proof.Machine.execIcdf e s
  | .topk e => Sys2Proof.Machine.execTopk e s
  | .argmax e => Sys2Proof.Machine.execArgmax e s
  | .sdadd e => Sys2Proof.Machine.execSdadd e s
  | .sdmul e => Sys2Proof.Machine.execSdmul e s
  | .sdcmp e => Sys2Proof.Machine.execSdcmp e s
  | .sdcut e => Sys2Proof.Machine.execSdcut e s
  | .sdtow e => Sys2Proof.Machine.execSdtow e s
  | .mma e => Sys2Proof.Machine.execMma e s
  | .smma e => Sys2Proof.Machine.execSmma e s
  | .mxcfg e => Sys2Proof.Machine.execMxcfg e s
  | .mxcfgMma e => Sys2Proof.Machine.execMxcfgMma e s
  | .mxcfgSmma e => Sys2Proof.Machine.execMxcfgSmma e s
  | .accld e => Sys2Proof.Machine.execAccld e s
  | .accst e => Sys2Proof.Machine.execAccst e s
  | .mxcfgSetfmt e => Sys2Proof.Machine.execMxcfgSetfmt e s
  | .matrixStep e => Sys2Proof.Machine.execMatrixStep e s
  | .tilesExpire e => Sys2Proof.Machine.execTilesExpire e s
  | .fscanc e => Sys2Proof.Machine.execFscanc e s
  | .fscand e => Sys2Proof.Machine.execFscand e s
  | .fscanb e => Sys2Proof.Machine.execFscanb e s
  | .fscant e => Sys2Proof.Machine.execFscant e s
  | .fisect e => Sys2Proof.Machine.execFisect e s
  | .funion e => Sys2Proof.Machine.execFunion e s
  | .frepeat e => Sys2Proof.Machine.execFrepeat e s
  | .freduce e => Sys2Proof.Machine.execFreduce e s
  | .fdrop e => Sys2Proof.Machine.execFdrop e s
  | .route e => Sys2Proof.Machine.execRoute e s
  | .steer e => Sys2Proof.Machine.execSteer e s
  | .merge e => Sys2Proof.Machine.execMerge e s
  | .join e => Sys2Proof.Machine.execJoin e s
  | .carry e => Sys2Proof.Machine.execCarry e s
  | .invar e => Sys2Proof.Machine.execInvar e s
  | .split e => Sys2Proof.Machine.execSplit e s
  | .order e => Sys2Proof.Machine.execOrder e s
  | .discard e => Sys2Proof.Machine.execDiscard e s
  | .sprd e => Sys2Proof.Machine.execSprd e s
  | .spwr e => Sys2Proof.Machine.execSpwr e s
  | .spbuf e => Sys2Proof.Machine.execSpbuf e s
  | .spfifo e => Sys2Proof.Machine.execSpfifo e s
  | .aadd e => Sys2Proof.Machine.execAadd e s
  | .afadd e => Sys2Proof.Machine.execAfadd e s
  | .amax e => Sys2Proof.Machine.execAmax e s
  | .axchg e => Sys2Proof.Machine.execAxchg e s
  | .acas e => Sys2Proof.Machine.execAcas e s
  | .affld g => Sys2Proof.Machine.execAffld g s
  | .affst g => Sys2Proof.Machine.execAffst g s
  | .gath g => Sys2Proof.Machine.execGath g s
  | .scat g => Sys2Proof.Machine.execScat g s
  | .rowg g => Sys2Proof.Machine.execRowg g s
  | .bagsum g => Sys2Proof.Machine.execBagsum g s
  | .chld g => Sys2Proof.Machine.execChld g s
  | .chst g => Sys2Proof.Machine.execChst g s
  | .chamo g => Sys2Proof.Machine.execChamo g s
  | .mnop g => Sys2Proof.Machine.execMnop g s
  | .req g => Sys2Proof.Machine.execReq g s
  | .egress g => Sys2Proof.Machine.execEgress g s
  | .camld g => Sys2Proof.Machine.execCamld g s
  | .camg g => Sys2Proof.Machine.execCamg g s
  | .camr g => Sys2Proof.Machine.execCamr g s
  | .cams g => Sys2Proof.Machine.execCams g s
  | .pleat g => Sys2Proof.Machine.execPleat g s
  | .ringput g => Sys2Proof.Machine.execRingput g s
  | .hemSweep => Sys2Proof.Machine.execHemSweep s
  | .instantResolve g => Sys2Proof.Machine.execInstantResolve g s
  | .complIncrement g => Sys2Proof.Machine.execComplIncrement g s
  | .queueTailSeen q => Sys2Proof.Machine.execQueueTailSeen q s
  | .distributorSelect => Sys2Proof.Machine.execDistributorSelect s
  | .configFrameArrive g p => Sys2Proof.Machine.execConfigFrameArrive g p s
  | .cfgLoadComplete g p => Sys2Proof.Machine.execCfgLoadComplete g p s
  | .quantumExpiry g => Sys2Proof.Machine.execQuantumExpiry g s
  | .cutSave g => Sys2Proof.Machine.execCutSave g s
  | .drainBudgetExpiry g => Sys2Proof.Machine.execDrainBudgetExpiry g s
  | .contextSaved g => Sys2Proof.Machine.execContextSaved g s
  | .contextRestore g => Sys2Proof.Machine.execContextRestore g s
  | .restoreComplete g => Sys2Proof.Machine.execRestoreComplete g s
  | .stallPeriod => Sys2Proof.Machine.execStallPeriod s
  | .pageClone g page => Sys2Proof.Machine.execPageClone g page s
  | .blockDispatch g page port => Sys2Proof.Machine.execBlockDispatch g page port s
  | .blockSchedule g => Sys2Proof.Machine.execBlockSchedule g s
  | .skipRequest e => Sys2Proof.Machine.execSkipRequest e s
  | .stageToken e => Sys2Proof.Machine.execStageToken e s
  | .tileTransfer g => Sys2Proof.Machine.execTileTransfer g s
  | .memoryReply g => Sys2Proof.Machine.execMemoryReply g s
  | .pageWalk core asid va kind => Sys2Proof.Machine.execPageWalk core asid va kind s
  | .chainEntryArrive g chain => Sys2Proof.Machine.execChainEntryArrive g chain s
  | .chainRelease g chain => Sys2Proof.Machine.execChainRelease g chain s
  | .chgapTimeout g chain => Sys2Proof.Machine.execChgapTimeout g chain s
  | .pocketDrain g => Sys2Proof.Machine.execPocketDrain g s
  | .elementFault g => Sys2Proof.Machine.execElementFault g s
  | .replay g => Sys2Proof.Machine.execReplay g s
  | .graphCauseDelivery core => Sys2Proof.Machine.execGraphCauseDelivery core s
  | .messageArrive core e m => Sys2Proof.Machine.execMessageArrive core e m s
  | .messageDispatch core => Sys2Proof.Machine.execMessageDispatch core s
  | .atomicReceive src id => Sys2Proof.Machine.execAtomicReceive src id s
  | .atomicResend src id => Sys2Proof.Machine.execAtomicResend src id s
  | .collectiveRequest g => Sys2Proof.Machine.execCollectiveRequest g s
  | .collectiveComplete tag => Sys2Proof.Machine.execCollectiveComplete tag s
  | .collectiveTimeout tag => Sys2Proof.Machine.execCollectiveTimeout tag s
  | .hostMemRead off n => Sys2Proof.Machine.execHostMemRead off n s
  | .hostMemWrite off bs => Sys2Proof.Machine.execHostMemWrite off bs s
  | .releaseWrite v => Sys2Proof.Machine.execReleaseWrite v s
  | .releaseComplete => Sys2Proof.Machine.execReleaseComplete s
  | .modnumWrite v => Sys2Proof.Machine.execModnumWrite v s
  | .qtableWrite v => Sys2Proof.Machine.execQtableWrite v s
  | .regblockWrite off v => Sys2Proof.Machine.execRegblockWrite off v s
  | .mbctlNext => Sys2Proof.Machine.execMbctlNext s
  | .keypub m => Sys2Proof.Machine.execKeypub m s
  | .settime m => Sys2Proof.Machine.execSettime m s
  | .stampcfg m => Sys2Proof.Machine.execStampcfg m s
  | .ringcfg m => Sys2Proof.Machine.execRingcfg m s
  | .lock m => Sys2Proof.Machine.execLock m s
  | .spareq m => Sys2Proof.Machine.execSpareq m s
  | .checkpoint m => Sys2Proof.Machine.execCheckpoint m s
  | .checkpointDone => Sys2Proof.Machine.execCheckpointDone s
  | .restore m => Sys2Proof.Machine.execRestore m s
  | .readsafe m => Sys2Proof.Machine.execReadsafe m s
  | .readsafeDone => Sys2Proof.Machine.execReadsafeDone s
  | .mkeyset m => Sys2Proof.Machine.execMkeyset m s
  | .mkeyget m => Sys2Proof.Machine.execMkeyget m s
  | .configScrub => Sys2Proof.Machine.execConfigScrub s
  | .patrolScrub => Sys2Proof.Machine.execPatrolScrub s
  | .linkFlitReplay port => Sys2Proof.Machine.execLinkFlitReplay port s
  | .unitRetire u => Sys2Proof.Machine.execUnitRetire u s
  | .portDown port => Sys2Proof.Machine.execPortDown port s
  | .thermalThrottle die => Sys2Proof.Machine.execThermalThrottle die s
  | .thermalShutdown => Sys2Proof.Machine.execThermalShutdown s
  | .deviceReset => Sys2Proof.Machine.execDeviceReset s
  | .cycle => Sys2Proof.Machine.execCycle s
  | .illegalInstruction w => Sys2Proof.Machine.execIllegalInstruction w s
  | .fetchFault cause tval => Sys2Proof.Machine.execFetchFault cause tval s
  | .portUp port => Sys2Proof.Machine.execPortUp port s
  | .coldReset => Sys2Proof.Machine.execColdReset s
  | .thermalThrottleEnd die => Sys2Proof.Machine.execThermalThrottleEnd die s
  | .softError t uncorrectable => Sys2Proof.Machine.execSoftError t uncorrectable s

end Sys2Proof.Machine
end

