-- ==== Sys2Proof/Machine/Plan.lean ====
section
/-! DEFINITION. What happens in a cycle of the module: the turns of the next cycle, in order (log entry 1). Every step named
here tests its own conditions when its turn comes; one that is not due leaves the module as it is. -/

namespace Sys2Proof.Machine

/-! ### The firing of an element by its opcode (07 R144) -/

/-- The steps of a compute element with an opcode. -/
def compSteps (op : Nat) (e : Elt) : List Instr := match op with
  | 0x01 => [.fadd e] | 0x02 => [.fsub e] | 0x03 => [.fmul e] | 0x04 => [.ffma e] | 0x05 => [.fmax e] | 0x06 => [.fmin e]
  | 0x07 => [.frcp e] | 0x08 => [.frsq e] | 0x09 => [.fexp2 e] | 0x0A => [.flog2 e] | 0x0B => [.fscl e] | 0x0C => [.fcmp e]
  | 0x0D => [.fsel e] | 0x0E => [.fcvt e]
  | 0x10 => [.iadd e] | 0x11 => [.isub e] | 0x12 => [.imul e] | 0x13 => [.imad e] | 0x14 => [.iand e] | 0x15 => [.ior e]
  | 0x16 => [.ixor e] | 0x17 => [.ishl e] | 0x18 => [.ishr e] | 0x19 => [.icmp e] | 0x1A => [.imin e] | 0x1B => [.imax e]
  | 0x20 => [.lbcast e] | 0x21 => [.lperm e] | 0x22 => [.lred e] | 0x23 => [.lscan e] | 0x24 => [.lshift e]
  | 0x28 => [.accum e] | 0x29 => [.runmax e] | 0x2A => [.count e] | 0x2B => [.gen e] | 0x2C => [.const e] | 0x2D => [.delay e]
  | 0x30 => [.rng e] | 0x31 => [.cumsum e] | 0x32 => [.icdf e] | 0x33 => [.topk e] | 0x34 => [.argmax e]
  | 0x38 => [.sdadd e] | 0x39 => [.sdmul e] | 0x3A => [.sdcmp e] | 0x3B => [.sdcut e] | 0x3C => [.sdtow e]
  | 0x40 => [.mma e, .matrixStep e, .tilesExpire e] | 0x41 => [.smma e, .matrixStep e, .tilesExpire e]
  | 0x44 => [.mxcfg e, .mxcfgMma e, .mxcfgSmma e, .accld e, .accst e, .mxcfgSetfmt e, .matrixStep e, .tilesExpire e]
  | 0x50 => [.fscanc e] | 0x51 => [.fscand e] | 0x52 => [.fscanb e] | 0x53 => [.fscant e] | 0x54 => [.fisect e]
  | 0x55 => [.funion e] | 0x56 => [.frepeat e] | 0x57 => [.freduce e] | 0x58 => [.fdrop e]
  | _ => []

/-- The step of a router element with an opcode. -/
def routerSteps (op : Nat) (e : Elt) : List Instr := match op with
  | 1 => [.route e] | 2 => [.steer e] | 3 => [.merge e] | 4 => [.join e] | 5 => [.carry e] | 6 => [.invar e]
  | 7 => [.split e] | 8 => [.order e] | 9 => [.discard e]
  | _ => []

/-- The step of a tile element with an opcode. -/
def tileSteps (op : Nat) (e : Elt) : List Instr := match op with
  | 0x01 => [.sprd e] | 0x02 => [.spwr e] | 0x03 => [.spbuf e] | 0x04 => [.spfifo e] | 0x08 => [.aadd e] | 0x09 => [.afadd e]
  | 0x0A => [.amax e] | 0x0B => [.axchg e] | 0x0C => [.acas e]
  | _ => []

/-- The steps of a generator with an opcode. -/
def genSteps (op : Nat) (g : GenAt) : List Instr := match op with
  | 0x01 => [.affld g] | 0x02 => [.affst g] | 0x03 => [.gath g] | 0x04 => [.scat g] | 0x05 => [.rowg g] | 0x06 => [.bagsum g]
  | 0x08 => [.chld g] | 0x09 => [.chst g] | 0x0A => [.chamo g] | 0x0B => [.mnop g] | 0x0C => [.req g] | 0x0D => [.egress g]
  | 0x10 => [.camld g] | 0x11 => [.camg g] | 0x12 => [.camr g] | 0x13 => [.cams g] | 0x14 => [.pleat g] | 0x15 => [.ringput g]
  | _ => []

/-- Whether matrix nodes of a die step in this cycle: every second one while it is hot (R481). -/
def State.matrixRuns (s : State) (e : Elt) : Bool :=
  !(s.dv.throttle.contains (Fin.ofNat 4 (e.core.val / 64)) && s.cycle % 2 = 1)

/-- The steps of one plane of a site: what has reached it, its element, its router element. -/
def State.siteSteps (s : State) (e : Elt) : List Instr :=
  let x := s.site e
  let due := fun (i : Instr) => match i with
    | .matrixStep _ => s.matrixRuns e
    | _ => true
  (if x.elem.asked.isEmpty && x.rout.asked.isEmpty then [] else [.skipRequest e]) ++
  (if x.stage.isEmpty then [] else [.stageToken e]) ++
  (match x.comp with | some f => (compSteps (opcOf f) e).filter due | none => []) ++
  (match x.tileFr with | some f => tileSteps (opcOf f) e | none => []) ++
  (match x.switch with | some f => routerSteps (opcOf f) e | none => [])

/-- The steps of the sites of every region: its ACTIVE planes in the order of their rotation, whichever graphs own them
(R86, R232). -/
def State.fabricSteps (s : State) : List Instr :=
  s.regions.flatMap fun p =>
    (p.2.planeOrder.filter fun pl => (p.2.plane pl.val).st = .active).flatMap fun pl =>
      (List.range 16).flatMap fun i => s.siteSteps ⟨Fin.ofNat 256 (p.1 / 16), Fin.ofNat 16 p.1, Fin.ofNat 16 i, pl⟩

/-- The steps of the generators of a graph: replies, what goes to tiles and engines, the generator itself. -/
def Graph.genSteps (x : Graph) (g : GraphIx) : List Instr :=
  x.gens.flatMap fun (n : Nat × Gen) =>
    let q := n.2
    let a : GenAt := ⟨g, Fin.ofNat 256 n.1⟩
    (if q.line.any fun i => !i.ready && i.wait.isNone then [.memoryReply a] else []) ++
    (if q.xfer.isEmpty then [] else [.tileTransfer a]) ++
    (if q.reqs.isEmpty then [] else [.collectiveRequest a]) ++
    (if q.parts.isEmpty then [] else Machine.genSteps (opcOf q.f) a)

/-- The steps of the chains of a graph. -/
def Graph.chainSteps (x : Graph) (g : GraphIx) : List Instr :=
  x.chains.flatMap fun (k : Nat × Chain) =>
    let c : BitVec 6 := BitVec.ofNat 6 k.1
    (if k.2.way.isEmpty then [] else [.chainEntryArrive g c]) ++
    (if k.2.held.isEmpty then [] else [.chainRelease g c, .chgapTimeout g c])

/-- The steps of the loads of a graph. -/
def Graph.loadSteps (x : Graph) (g : GraphIx) : List Instr :=
  ((x.loads.map (·.plane)).eraseDups).flatMap fun p =>
    [.configFrameArrive g (BitVec.ofNat 2 p), .cfgLoadComplete g (BitVec.ofNat 2 p)]

/-- The steps of the pages of a graph: clones and record mode. -/
def Graph.pageSteps (x : Graph) (g : GraphIx) : List Instr :=
  x.table.flatMap fun (t : PageInfo) =>
    let n : BitVec 6 := BitVec.ofNat 6 t.page
    (if t.clon then [.pageClone g n] else []) ++
    (if x.nblk = 0 then [] else (List.range 4).map fun i => .blockDispatch g n (BitVec.ofNat 2 i))

/-- The steps of a graph besides its elements'. -/
def Graph.steps (x : Graph) (g : GraphIx) : List Instr :=
  if !x.live then []
  else
    x.chainSteps g ++ x.loadSteps g ++ x.pageSteps g ++
    (if x.nblk = 0 then [] else [.blockSchedule g]) ++
    (if x.started then [.elementFault g, .pocketDrain g, .replay g, .cutSave g, .drainBudgetExpiry g, .contextSaved g,
      .quantumExpiry g, .instantResolve g] else [])

/-- The graphs of queues that have ended: their completion follows the turns of the cores, so that a core that waits for the end
in GWAIT reads its status first (R219, R223, R244). -/
def State.complSteps (s : State) : List Instr :=
  (s.graphs.filter fun p => p.2.live && p.2.queue.isSome && p.2.st = .ended).map fun p => .complIncrement (Fin.ofNat 4096 p.1)

/-- The contexts that wait to be restored, in the order in which regions go to them (R231), and those being restored. -/
def State.restoreSteps (s : State) : List Instr :=
  (s.waiters.filter fun g => (s.graph g).ctx = .cut).map .contextRestore ++
  (s.graphIxs.filter fun g => (s.graph g).ctx = .restoring).map .restoreComplete

/-- The step that handles the first request of the mailboxes (R471). -/
def State.mailSteps (s : State) : List Instr :=
  (match s.dv.order with
  | [] => []
  | m :: _ => match s.command m with
    | 0x01 => [.keypub m] | 0x02 => [.settime m] | 0x03 => [.stampcfg m] | 0x04 => [.ringcfg m] | 0x05 => [.lock m]
    | 0x06 => [.spareq m] | 0x07 => [.checkpoint m] | 0x08 => [.restore m] | 0x09 => [.readsafe m] | 0x0A => [.mkeyset m]
    | 0x0B => [.mkeyget m]
    | _ => []) ++
  match s.dv.service with
  | .idle => []
  | .saving _ _ => [.checkpointDone]
  | .reading _ => [.readsafeDone]

/-- The steps of collective engines, atomics and cores that wait. -/
def State.waitSteps (s : State) : List Instr :=
  (((s.colls.map fun r => CollDesc.tag r.desc).eraseDups).flatMap fun t =>
    [.collectiveComplete (BitVec.ofNat 16 t), .collectiveTimeout (BitVec.ofNat 16 t)]) ++
  (s.atoms.flatMap fun a => [.atomicReceive a.src a.id, .atomicResend a.src a.id]) ++
  (s.cores.flatMap fun k => match k.2.wait with
    | .tinv _ => [.tinvComplete (Fin.ofNat 256 k.1)]
    | _ => []) ++
  (if s.block.relReq.isSome then [.releaseComplete] else [])

/-- Whether the distributor selects: not during a checkpoint (R480). -/
def State.distributes (s : State) : Bool := match s.dv.service with
  | .saving _ _ => false
  | _ => s.qtableEn

/-- The steps that are due at fixed cycles: the sweep every 32, the distributor every 64, the stall period every 65,536, the
scrubs every 10 ms and every 24 hours (R222, R224, R233, R440, R477). -/
def State.periodicSteps (s : State) : List Instr :=
  let at_ := fun (n : Nat) => s.cycle % n = 0
  (if at_ 32 then [.hemSweep] else []) ++
  (if at_ 64 && s.distributes then (List.range 64).map (fun q => .queueTailSeen (BitVec.ofNat 6 q)) ++ [.distributorSelect] else []) ++
  (if at_ 65536 then [.stallPeriod] else []) ++
  (if at_ (cyclesPerSecond / 100) then [.configScrub] else []) ++
  (if at_ (cyclesPerSecond * 86400) then [.patrolScrub] else [])

/-- The cores that have a turn: running, and not waiting for another step to complete their instruction. -/
def State.turnCores (s : State) : List CoreIx :=
  s.cores.filterMap fun c =>
    match c.2.run, c.2.wait with
    | .running, .none => some (Fin.ofNat 256 c.1)
    | .running, .barrier _ _ _ => some (Fin.ofNat 256 c.1)
    | .running, .waiti => some (Fin.ofNat 256 c.1)
    | _, _ => none

/-- The steps of the next cycle: the environment's, the firings that the cycle begins with, the cycle itself, what it leads to. -/
def State.due (s : State) : List Instr :=
  let gs := s.graphIxs
  s.fabricSteps ++ (gs.flatMap fun g => (s.graph g).genSteps g) ++ [.cycle] ++ s.periodicSteps ++
  (gs.flatMap fun g => (s.graph g).steps g) ++ s.restoreSteps ++ s.waitSteps ++ s.mailSteps

/-- The turns of the next cycle; a module that has stopped takes inputs only (R481). -/
def State.plan (s : State) : State :=
  { s with
    agenda := s.inputs.map .event ++
      (if s.dv.stopped then [] else s.due.map .event ++ s.turnCores.map .core ++ s.complSteps.map .event)
    inputs := [] }

/-- The instruction or step that a turn of the acting core executes, and the state it executes in: a delivery that is
due, else the instruction at pc (R18, R415). -/
inductive TurnWork where
  | run (i : Instr) (s : State)
  | pass (s : State)

/-- The step that delivers what is due at the acting core (R415). -/
def Core.delivery (k : Core) (c : CoreIx) : Instr :=
  if k.pending.isEmpty then .messageDispatch c else .graphCauseDelivery c

/-- The turn of a core in WAITI: with a delivery pending, WAITI completes, and the delivery is taken at once where the core
takes one (R422). -/
def State.wakeWork (s : State) : TurnWork :=
  let k := s.me
  let s1 := s.setMe { k.setPc (k.pc + 4) with wait := .none }
  if !k.hasDelivery then .pass s
  else if k.takesDelivery then .run (k.delivery s.cur) s1
  else .pass s1

/-- The work of a core's turn: a delivery, a fetch fault, an instruction, or 0xB0 where a register it consumes has an uncorrectable word, of
which TVAL is left open (R18, R57, R59, R415, R477, log entry 84). -/
def State.turnWork (s : State) : TurnWork :=
  let k := s.me
  match k.run, k.wait with
  | .running, .tinv _ => .pass s
  | .running, .atomic _ => .pass s
  | .running, .waiti => s.wakeWork
  | .running, w =>
    if k.takesDelivery then .run (k.delivery s.cur) s
    else match w with
      | .none =>
        match s.fetch with
        | .fault c v => .run (.fetchFault c v) s
        | .word w s1 => match decodeWord w.toNat with
          | .ok i => match (sourcesOf i).any fun r => k.spoiled.contains r with
            | false => .run i s1
            | true => let (v, s2) := s1.choose (2 ^ 64); .pass (s2.raiseAt s2.cur s2.me.pc 0xB0 (BitVec.ofNat 64 v))
          | .error _ => .run (.illegalInstruction w) s1
      | _ => .pass s
  | _, _ => .pass s

/-- A word placed where the acting core's next turn fetches it (see State.withFetchWord). -/
def State.placeWord (s : State) (w : Nat) : State :=
  let k := s.me
  let t : TlbEntry := ⟨k.asid, k.pc.toNat / 65536, 16, 0x1D⟩
  let pa := k.pc.toNat % 65536
  let s1 := s.storeBytes (addrs pa 4) (leBytes 4 w)
  let k1 := { k with run := .running, wait := .none, pending := [], dispatch := [], spoiled := [], itlb := t :: k.itlb,
                     istale := k.istale.set [] (s1.key pa / 4) [] }
  { s1 with repair := { s1.repair with marks := s1.repair.marks.set 0 (s1.key pa / 8) 0, offline := [] } }.setMe k1

end Sys2Proof.Machine
end

