-- ==== Sys2Proof/Machine/Step.lean ====
section
/-! DEFINITION. One step of the module: one turn of its agenda (log entry 1). -/

namespace Sys2Proof.Machine

/-- The step of a core's turn. -/
def coreTurn (s : State) : Host.Outcome State Fault Refusal :=
  match s.turnWork with
  | .run i s1 => exec i s1
  | .pass s1 => .next s1

/-- One step: the first turn of the agenda; with an empty agenda, the next cycle is planned. -/
def step (s : State) : Host.Outcome State Fault Refusal :=
  match s.agenda with
  | [] => .next s.plan
  | .event i :: r => exec i { s with agenda := r }
  | .core c :: r => coreTurn { s with agenda := r, cur := c }

/-- s with an instruction word where the next step fetches: the acting core runs, its turn is next, no delivery stands
before it, a cached translation maps the page of its pc to the first page of device memory, and the word's bytes stand
there (log entry 8). -/
def State.withFetchWord (s : State) (nbits w : Nat) : State :=
  { s.placeWord (w % 2 ^ nbits) with agenda := [.core s.cur] }

end Sys2Proof.Machine
end

