-- ==== Sys2Proof/Claims.lean ====
section
/-! DEFINITION. The words in which the statements of this package are written: what an instruction answers, what it writes,
what it leaves alone, and the invariant of the module. -/

namespace Sys2Proof.Claims

open Machine

/-- i answers a next state of which P holds. -/
def Gives (i : Instr) (s : State) (P : State → Prop) : Prop := ∃ t, exec i s = .next t ∧ P t

/-- The invariant: memory is canonical, every core is legal, ASTAB, BARTAB and CTXTAB hold their own bits only, and so does
the checkpoint held. -/
def Inv (s : State) : Prop :=
  legalModule s.cores s.mem s.astab s.bartab s.ctxtab = true ∧ ∀ i, s.dv.safe = some i → i.legal = true

/-- Nothing but the acting core differs. -/
structure OnlyMe (s t : State) : Prop where
  rest   : t = { s with cores := t.cores }
  others : ∀ c, c ≠ s.cur → t.core c = s.core c

/-- Registers after a write of v to d: x0 reads as zero whatever is written (R9), and the word written is good again (R477). -/
structure RegsWritten (k : Core) (d : Reg) (v : Word) (l : Core) : Prop where
  regs  : ∀ r, l.reg r = if r = d ∧ r ≠ 0 then v else k.reg r
  marks : l.spoiled = if d = 0 then k.spoiled else k.spoiled.filter (· ≠ d)

/-- The acting core has written v to d and goes on at pc + 4; nothing else has changed (R18). -/
structure Wrote (s : State) (d : Reg) (v : Word) (t : State) : Prop where
  regs : RegsWritten s.me d v t.me
  pc   : t.me.pc = s.me.pc + 4
  core : t.me = { s.me with x := t.me.x, spoiled := t.me.spoiled, pc := t.me.pc }
  only : OnlyMe s t

/-- The acting core goes on at v; nothing else has changed. -/
structure WentTo (s : State) (v : Word) (t : State) : Prop where
  core : t.me = { s.me with pc := v }
  only : OnlyMe s t

/-- The acting core goes on at v with a link in d; nothing else has changed. -/
structure Linked (s : State) (d : Reg) (link v : Word) (t : State) : Prop where
  regs : RegsWritten s.me d link t.me
  pc   : t.me.pc = v
  core : t.me = { s.me with x := t.me.x, spoiled := t.me.spoiled, pc := t.me.pc }
  only : OnlyMe s t

/-- STATUS after trap entry (R23): PIE and PSUP hold the old IE and SUP, IE is 0, SUP and NEST are 1, the rest is 0. -/
def entryStatus (k : Core) : Word :=
  (if k.status.getLsbD 0 then 2 else 0) + 4 + (if k.status.getLsbD 2 then 8 else 0) + 16

/-- A word with bits [63:52] zero: what of a 64-bit value fits the 52 bits of pc (R9, R26). -/
def low52 (v : Word) : Word := (v.setWidth 52).setWidth 64

/-- The acting core has taken a precise trap (R19, R23): the saved registers, STATUS and pc are as R23 has them, the general
registers are unchanged, and nothing else has changed. -/
structure Trapped (s : State) (cause : Nat) (tval : Word) (t : State) : Prop where
  epc    : t.me.epc = s.me.pc
  tcause : t.me.tcause = BitVec.ofNat 64 cause
  tval   : t.me.tval = tval
  status : t.me.status = entryStatus s.me
  pc     : t.me.pc = low52 s.me.tvec
  core   : t.me = { s.me with epc := t.me.epc, tcause := t.me.tcause, tval := t.me.tval, status := t.me.status,
                              pc := t.me.pc }
  only   : OnlyMe s t

/-- The acting core can take a trap: it is legal and no handler runs (R23). -/
structure CanTrap (s : State) : Prop where
  legal : s.me.legal = true
  nest  : s.me.status.getLsbD 4 = false

/-- The signed value of an immediate, as a word. -/
def signed {n : Nat} (i : BitVec n) : Word := BitVec.ofInt 64 i.toInt

/-- A condition as 1 or 0. -/
def one (p : Prop) [Decidable p] : Word := if p then 1 else 0

/-- Where core c waits on a barrier's phase that p accepts. -/
def Waits (k : Core) (name : Nat) (p : BitVec 16 → Bool) (rd : Reg) : Prop :=
  ∃ target, k.wait = .barrier name target rd ∧ p target = true

/-- The value that n loaded bytes give a register (R11, R72): little-endian, sign-extended or zero-extended. -/
def loaded (sx : Bool) (bs : List Byte) : Word :=
  let v := leNat bs
  if sx && 2 ^ (8 * bs.length - 1) ≤ v then BitVec.ofInt 64 ((v : Int) - 2 ^ (8 * bs.length)) else BitVec.ofNat 64 v

/-- A load's next state: the register, pc + 4, the translations that the core's TLB has taken up, and nothing else. -/
structure Loaded (s : State) (d : Reg) (v : Word) (t : State) : Prop where
  regs : RegsWritten s.me d v t.me
  pc   : t.me.pc = s.me.pc + 4
  core : t.me = { s.me with x := t.me.x, spoiled := t.me.spoiled, pc := t.me.pc, dtlb := t.me.dtlb }
  only : OnlyMe s t

/-- The virtual address of a load or a store (R22): modulo 2^64. -/
def address (s : State) (a : Reg) (i : BitVec 12) : Word := BitVec.ofInt 64 ((s.reg a).toInt + i.toInt)

/-- The seven loads, their sizes in bytes and whether they extend the sign (R72). -/
def loads : List ((Reg → Reg → BitVec 12 → Instr) × Nat × Bool) :=
  [(.ldb, 1, true), (.ldbu, 1, false), (.ldh, 2, true), (.ldhu, 2, false), (.ldw, 4, true), (.ldwu, 4, false), (.ldd, 8, false)]

/-- The four stores and their sizes in bytes (R73). -/
def stores : List ((Reg → Reg → BitVec 12 → Instr) × Nat) := [(.stb, 1), (.sth, 2), (.stw, 4), (.std, 8)]

/-- The frame of a store: the bytes at the storage keys of `pas` take the bytes of v, every other byte reads as before; the
acting core goes on; of it only pc, the TLB and what its fetches may still see (R21) differ; the marks of words written whole
leave the list of uncorrectable ones; nothing else has changed. -/
structure Stored (s : State) (pas : List Nat) (v : Nat) (t : State) : Prop where
  bytes  : ∀ j, (h : j < pas.length) → (∀ m, (h2 : m < pas.length) → j < m → s.key pas[m] ≠ s.key pas[j]) →
             t.byteAt (s.key pas[j]) = BitVec.ofNat 8 (v / 2 ^ (8 * j))
  memory : ∀ k, k ∉ pas.map s.key → t.byteAt k = s.byteAt k
  core   : t.me = { s.me with pc := s.me.pc + 4, dtlb := t.me.dtlb, istale := t.me.istale }
  others : ∀ c, c ≠ s.cur → t.core c = s.core c
  rest   : t = { s with cores := t.cores, mem := t.mem, repair := { s.repair with marks := t.repair.marks } }

/-- A 32-bit integer lane as CELL writes it to a register (R13, R156): sign-extended to 40 bits, bits [63:40] zero. -/
def intWord (n : Int) : Word := ((BitVec.ofInt 32 n).signExtend 40).setWidth 64

/-- The integer that a register's lane holds (R13). -/
def intLane (x : Word) : Int := (x.setWidth 32).toInt

/-- The new value of an atomic's word (R324); a failing CAS leaves the old one. -/
def atomicNew {n : Nat} (o : BitVec 3) (old v e : BitVec n) : BitVec n :=
  match o.toNat with
  | 0 => old + v
  | 1 => v
  | 2 => if old = e then v else old
  | 3 => if old.toInt ≤ v.toInt then old else v
  | 4 => if v.toInt ≤ old.toInt then old else v
  | 5 => old &&& v
  | _ => old ||| v

/-- Memory after the low bytes of v have been stored at the storage keys ks, and nothing else: of two equal keys the later
byte stands. -/
structure Bytes (s : State) (ks : List Nat) (v : Nat) (t : State) : Prop where
  stored : ∀ j, (h : j < ks.length) → (∀ m, (h2 : m < ks.length) → j < m → ks[m] ≠ ks[j]) →
             t.byteAt ks[j] = BitVec.ofNat 8 (v / 2 ^ (8 * j))
  others : ∀ k, k ∉ ks → t.byteAt k = s.byteAt k

/-- What an atomic leaves: xd holds the old value sign-extended, memory the new one, the core goes on, its next atomic has the
next id, the target keeps the reply; nothing else has changed. -/
structure Swapped (s : State) (pas : List Nat) (d : Reg) (old : Word) (new : Nat) (t : State) : Prop where
  memory  : Bytes s (pas.map s.key) new t
  regs    : RegsWritten s.me d old t.me
  core    : t.me = { s.me with x := t.me.x, spoiled := t.me.spoiled, pc := s.me.pc + 4, dtlb := t.me.dtlb, istale := t.me.istale,
                               atomId := s.me.atomId + 1, wait := .none }
  others  : ∀ c, c ≠ s.cur → t.core c = s.core c
  replies : ∃ r, r ∈ t.replies ∧ r.src = s.cur.val ∧ r.id = s.me.atomId
  atoms   : ∀ a, a ∈ t.atoms → a ∈ s.atoms
  rest    : t = { s with cores := t.cores, mem := t.mem, repair := { s.repair with marks := t.repair.marks },
                         losses := s.losses.tail, replies := t.replies, atoms := t.atoms }

/-- A core released from a wait: the register takes the status and the core goes on (R329). -/
structure Released (k : Core) (rd : Reg) (status : Word) (l : Core) : Prop where
  regs : RegsWritten k rd status l
  pc   : l.pc = k.pc + 4
  wait : l.wait = .none

/-- The acting core goes on after a barrier operation, and the barrier named stands as b; the cores whose wait `p` accepts are
released with the status, the others are as before but for their barriers; every other hardware barrier is as before, and of
memory only the barrier's own entry has changed. -/
structure Barred (s : State) (name : Nat) (b : Barrier) (p : BitVec 16 → Bool) (status : Word) (t : State) : Prop where
  bar      : t.getBar name = b
  released : ∀ c rd, c ≠ s.cur → Waits (s.core c) name p rd → Released (s.core c) rd status (t.core c)
  waiting  : ∀ c, c ≠ s.cur → (∀ rd, ¬Waits (s.core c) name p rd) → t.core c = { s.core c with barriers := (t.core c).barriers }
  bars     : ∀ m, m ≠ name → m < 2 ^ 20 → t.getBar m = s.getBar m
  core     : t.me = { s.me with pc := s.me.pc + 4, barriers := t.me.barriers }
  memory   : ∀ k, (name < 2 ^ 20 ∨ k ∉ (addrs (s.barPa name) 16).map s.key) → t.byteAt k = s.byteAt k
  rest     : t = { s with cores := t.cores, mem := t.mem, repair := { s.repair with marks := t.repair.marks } }

/-- A barrier that a well-formed name of xs1 reaches (R328, R331): a hardware barrier, or an entry of the table in storage. -/
structure BarrierAt (s : State) (v : Word) (wait : Bool) : Prop where
  good   : s.goodBarrier v wait = true
  base   : v.getLsbD 20 = true → window s.bartabBase ≠ .none
  there  : v.getLsbD 20 = true → s.undeliverables (addrs (s.barPa (barName v)) 16) = none
  memory : v.getLsbD 20 = true → ∀ p ∈ addrs (s.barPa (barName v)) 16, p < blockBase

/-- The acting core waits: the step has changed nothing, and its next turn tries again. -/
def Retries (i : Instr) (s : State) : Prop := exec i s = .next s

/-- The control registers that can be read, with their values (R14, R54, R260, R266, R274, R331, R412, R436); GCTL and TINV read as zero. -/
def controlRegisters (s : State) : List (Nat × Word) :=
  [(0x00, s.me.status), (0x01, s.me.tvec), (0x02, s.me.tcause), (0x03, s.me.tval), (0x04, s.me.epc), (0x05, s.me.clock),
   (0x06, s.me.quantum), (0x07, BitVec.ofNat 64 s.cur.val), (0x08, s.me.cmod), (0x09, s.astab), (0x0A, s.me.asid.setWidth 64),
   (0x0B, 0), (0x0C, s.me.cvtev), (0x0D, s.bartab), (0x0E, s.me.frec), (0x0F, 0), (0x10, s.me.drainb.setWidth 64),
   (0x11, s.ctxtab)]

/-- The bits of a word from lo to hi - 1 kept, the others zero. -/
def kept (v : Word) (lo hi : Nat) : Word := BitVec.ofNat 64 (v.toNat / 2 ^ lo % 2 ^ (hi - lo) * 2 ^ lo)
/-- The acting core can read n bytes of storage at a virtual address: these bytes, and u the state in which its TLB has taken
up the translations. -/
def ReadsTo (s : State) (a : Word) (n : Nat) (bs : List Byte) (u : State) : Prop :=
  ∃ pas, s.span a n .load = .ok pas u ∧ s.undeliverables pas = none ∧ isBlock pas = false ∧ bs = s.bytesAt pas

/-- Of the graphs, only g differs, which now is x. -/
def OnlyGraph (s : State) (g : GraphIx) (x : Graph) (t : State) : Prop :=
  t.graph g = x ∧ ∀ h, h ≠ g → t.graph h = s.graph h

/-- A plane of a page of a graph goes to LOADING or stays as the statement says. -/
def PlaneIs (t : State) (c : CoreIx) (r : Fin 16) (p : Nat) (st : PlaneState) (owner : Option GraphIx) : Prop :=
  ((t.region c r).plane p).st = st ∧ ((t.region c r).plane p).owner = owner

/-- The handle in the low 16 bits of n names no live slot of its generation (R219). -/
def Stale (s : State) (n : Nat) : Prop :=
  ∀ g : GraphIx, g.val = n % 4096 → (s.graph g).live = true → n / 4096 % 16 ≠ (s.graph g).gen % 16

/-- Nothing keeps a graph from its regions (R86, R230, R231): beside its planes there stand no ACTIVE plane of another graph that runs
and no plane of a context that is being restored, unless the region and the page are both interleaved. -/
def Unkept (s : State) (g : GraphIx) : Prop :=
  ∀ p ∈ (s.graph g).pages, ∀ i < 4, ∀ h, ((s.region p.2.1 p.2.2).plane i).owner = some h → h ≠ g →
    ((((s.region p.2.1 p.2.2).plane i).st = .active → (s.graph h).st = .idle ∨ (s.graph h).st = .ended) ∧ (s.graph h).ctx ≠ .restoring) ∨
    ((s.region p.2.1 p.2.2).inter = true ∧ ∃ t, (s.graph g).pageInfo p.1 = some t ∧ t.inter = true)

/-- A candidate on which the generators of an image find their places (R227, R229); an image that cannot be read or fails its checks asks
for none, and its load is to fail. -/
def Binds (s : State) (img p : Nat) (pages : List Nat) (l : List (CoreIx × Fin 16)) : Prop :=
  (s.placedOn { Graph.free with asid := s.me.asid } pages (s.imageAt s.me.asid img) (fun _ => p) l).isSome = true


/-! ### A core's turn -/

/-- The acting core's turn fetches at its pc: it runs, waits for nothing and takes no delivery. -/
structure Fetches (k : Core) : Prop where
  runs : k.run = .running
  free : k.wait = .none
  calm : k.takesDelivery = false

/-- The word that storage holds at a physical address, little-endian (R11). -/
def wordAt (s : State) (pa : Nat) : BitVec 32 := BitVec.ofNat 32 (leNat (s.bytesAt (addrs pa 4)))

/-- Some instructions with their words, bit for bit as the encoding tables of 03, 04, 11, 16 and 23 have them. -/
def words : List (Nat × Instr) :=
  [(0x0020_3141, .add 5 3 8), (0x0520_3141, .div 5 3 8), (0x1220_3141, .max 5 3 8), (0xFFF0_3142, .addi 5 3 0xFFF),
   (0x0030_6247, .shli 9 6 3), (0x0238_6247, .srai 9 6 0x23), (0x0000_2148, .lui 5 2), (0x0100_314A, .popc 5 3),
   (0xFFFF_C00B, .jal 0 0xFFFFC), (0x0081_004C, .jalr 1 16 8), (0x1020_314E, .cell 5 3 8 0x10), (0x0920_314F, .cell3 5 3 8 9),
   (0x0220_3050, .beq 3 8 0x081), (0x0110_8FDE, .ldd 63 8 0x011), (0x0120_3163, .std 3 8 0x045), (0x0320_3168, .cfgload 5 3 8 3),
   (0x3F00_316B, .qpush 5 3 63), (0x0020_302E, .armsec 3 8), (0x0500_0030, .fence 5), (0x4A20_3171, .amo 5 3 8 2 1 4),
   (0x0C20_3032, .chsend 3 8 3), (0x0E00_0172, .chpoll 5 3), (0x0200_3173, .barwait 5 3), (0x0012_3038, .trap 0x123),
   (0x0100_0038, .tret), (0x00E0_0179, .crr 5 0x00E), (0x00B0_303A, .crw 3 0x00B), (0x2A00_303B, .hdlset 3 42)]

/-- The instructions that a word stands for: those with an encoding. -/
def HasWord (i : Instr) (w : Nat) : Prop := encodeNat i = some w

/-- The instructions that store to the address space. -/
def storesTo : Instr → Bool
  | .stb _ _ _ | .sth _ _ _ | .stw _ _ _ | .std _ _ _ | .amo _ _ _ _ _ _ | .qpush _ _ _ | .barinit _ _ | .bararr _ | .barinv _ => true
  | _ => false

/-! ### Firings -/

/-- An element of a site may fire for a graph: its plane is ACTIVE and the graph's, the graph is in RUN and is not being cut,
and no plane of the site has fired the same element in this cycle (R86, R94, R114, R232). The
element proper is r = false, the router element r = true. -/
structure MayFire (s : State) (g : GraphIx) (e : Elt) (r : Bool) : Prop where
  active : (s.planeOf e).st = .active
  owner  : (s.planeOf e).owner = some g
  live   : (s.graph g).live = true
  run    : (s.graph g).st = .run
  thawed : (s.graph g).frozen = false
  ctx    : (s.graph g).ctx = .running
  fresh  : ∀ p : Fin 4, ((s.site { e with plane := p }).half r).fired = false
  quiet  : (s.site e).elem.send = none

/-- A compute cell or a fibre cell with frame f of opcode op may fire. -/
structure CellAt (s : State) (g : GraphIx) (e : Elt) (f : FrameBits) (op : Nat) : Prop where
  may  : MayFire s g e false
  calm : (s.site e).elem.drain = none
  comp : (s.site e).comp = some f
  op   : opcOf f = op

/-- Output o of a site is free in this cycle (R95). -/
def Free (s : State) (g : GraphIx) (e : Elt) (o : Nat) : Prop := (s.envOf g e).free.contains o = true

/-- At every listed port stands a value token that is no error token. -/
def Values (s : State) (e : Elt) (ports : List Nat) : Prop :=
  ports ≠ [] ∧ ∀ p ∈ ports, ∃ t, (s.site e).head p = some t ∧ t.kind = 0 ∧ t.err = false

/-- At every listed port stands a stop or D of one kind. -/
def Stops (s : State) (e : Elt) (ports : List Nat) (k : Fin 8) : Prop :=
  ports ≠ [] ∧ k ≠ 0 ∧ ∀ p ∈ ports, ∃ t, (s.site e).head p = some t ∧ t.kind = k ∧ t.err = false

/-- The listed ports have consumed their heads, the others have not. -/
def Consumed (s t : State) (e : Elt) (ports : List Nat) : Prop := ∀ p < 6,
  ((t.site e).portStage p).toks = if p ∈ ports then ((s.site e).portStage p).toks.tail else ((s.site e).portStage p).toks

/-- The element at e has fired: no other site has changed, its frames have not, and of the graph only what counts firings and
logs them; nothing else of the module has changed. -/
structure Fired (s : State) (g : GraphIx) (e : Elt) (t : State) : Prop where
  sites  : ∀ u, u ≠ e → t.site u = s.site u
  frames : (t.site e).comp = (s.site e).comp ∧ (t.site e).tileFr = (s.site e).tileFr ∧ (t.site e).switch = (s.site e).switch
  graph  : t.graph g = { s.graph g with act := (s.graph g).act + 1, logged := (t.graph g).logged, dead := (t.graph g).dead }
  graphs : ∀ h, h ≠ g → t.graph h = s.graph h
  rest   : t = { s with sites := t.sites, graphs := t.graphs }

/-- What stands in output o of a site for the next cycle. -/
def Emits (t : State) (e : Elt) (o : Nat) (k : Token) : Prop := ((t.site e).out o).nxt = some k

/-- Operand i of a compute frame (R136): the head of its port, or a constant in all lanes, IMM or a delay register. -/
def operand (s : State) (g : GraphIx) (e : Elt) (f : FrameBits) (i : Nat) : Token :=
  match srcOf f i with
  | 0 => ((s.site e).head i).getD doneTok
  | 1 => constTok (immOf f)
  | _ => constTok ((s.graph g).dreg.get 0 (dselOf f))

/-- A value token with these lanes where the mask is set and zero elsewhere (R91). -/
structure IsValue (k : Token) (m : BitVec 16) (fl : Bool) (lane : Nat → Lane) : Prop where
  kind  : k.kind = 0
  err   : k.err = false
  fill  : k.fill = fl
  mask  : k.mask = m
  lanes : ∀ i < 16, k.lane i = if m.getLsbD i then lane i else 0

/-- The integer lane of n: wrapped to 32 bits, or saturated where MOD says so (R156, R170). -/
def intLaneOf (m : BitVec 24) (n : Int) : Lane :=
  (BitVec.ofInt 32 (if modSat m then max (-2 ^ 31) (min n (2 ^ 31 - 1)) else n)).signExtend 40

/-- The opcodes that compute lane by lane: constructor, code, operands read, lane result of A, B and C (R144, R174-R180, R185). -/
def laneCells : List ((Elt → Instr) × Nat × List Nat × (BitVec 24 → Lane → Lane → Lane → Lane)) :=
  let x := fun (a : Lane) => (a.setWidth 32).toInt
  let u := fun (a : Lane) => (a.setWidth 32).toNat
  let int := fun (n : Int) => ((BitVec.ofInt 32 n).signExtend 40 : Lane)
  [(.fadd, 0x01, [0, 1], fun m a b _ => fadd a b (modRnd m)), (.fsub, 0x02, [0, 1], fun m a b _ => fsub a b (modRnd m)),
   (.fmul, 0x03, [0, 1], fun m a b _ => fmul a b (modRnd m)), (.ffma, 0x04, [0, 1, 2], fun m a b c => ffma a b c (modRnd m)),
   (.fmax, 0x05, [0, 1], fun _ a b _ => fmax a b), (.fmin, 0x06, [0, 1], fun _ a b _ => fmin a b),
   (.frcp, 0x07, [0], fun m a _ _ => frcp a (modRnd m)), (.frsq, 0x08, [0], fun m a _ _ => frsq a (modRnd m)),
   (.fexp2, 0x09, [0], fun m a _ _ => fexp2 a (modRnd m)), (.flog2, 0x0A, [0], fun m a _ _ => flog2 a (modRnd m)),
   (.fscl, 0x0B, [0, 1], fun m a b _ => fscl a (x b) (modRnd m)),
   (.fcmp, 0x0C, [0, 1], fun m a b _ => if fcond (modCond m) a b then 1 else 0),
   (.fsel, 0x0D, [0, 1, 2], fun _ a b c => if x c = 0 then b else a),
   (.fcvt, 0x0E, [0], fun m a _ _ => if m.toNat % 4 = 0 then f2i a (modRnd m) else if m.toNat % 4 = 1 then i2f a (modRnd m) else rint a (modRnd m)),
   (.iadd, 0x10, [0, 1], fun m a b _ => intLaneOf m (x a + x b)), (.isub, 0x11, [0, 1], fun m a b _ => intLaneOf m (x a - x b)),
   (.imul, 0x12, [0, 1], fun m a b _ => intLaneOf m (x a * x b)), (.imad, 0x13, [0, 1, 2], fun m a b c => intLaneOf m (x a * x b + x c)),
   (.iand, 0x14, [0, 1], fun _ a b _ => ((a.setWidth 32 &&& b.setWidth 32).signExtend 40 : Lane)),
   (.ior, 0x15, [0, 1], fun _ a b _ => ((a.setWidth 32 ||| b.setWidth 32).signExtend 40 : Lane)),
   (.ixor, 0x16, [0, 1], fun _ a b _ => ((a.setWidth 32 ^^^ b.setWidth 32).signExtend 40 : Lane)),
   (.ishl, 0x17, [0, 1], fun m a b _ => intLaneOf m (x a * 2 ^ (u b % 32))),
   (.ishr, 0x18, [0, 1], fun m a b _ => if m.toNat % 2 = 1 then int (u a / 2 ^ (u b % 32) : Nat) else int (x a / 2 ^ (u b % 32))),
   (.icmp, 0x19, [0, 1], fun m a b _ => if icond (modCond m) (x a) (x b) then 1 else 0),
   (.imin, 0x1A, [0, 1], fun _ a b _ => int (min (x a) (x b))), (.imax, 0x1B, [0, 1], fun _ a b _ => int (max (x a) (x b))),
   (.rng, 0x30, [0, 1, 2], fun m a b c => rngLane m a b c)]

/-- The compute-cell opcodes without the signed-digit ones: constructor, code, the operands they read. -/
def plainCells : List ((Elt → Instr) × Nat × List Nat) :=
  laneCells.map (fun p => (p.1, p.2.1, p.2.2.1)) ++
  [(.lbcast, 0x20, [0]), (.lperm, 0x21, [0, 1]), (.lred, 0x22, [0]), (.lscan, 0x23, [0]), (.lshift, 0x24, [0]),
   (.runmax, 0x29, [0]), (.cumsum, 0x31, [0]), (.const, 0x2C, [0, 1]), (.delay, 0x2D, [0, 1]), (.gen, 0x2B, [0, 1])]

/-- The compute-cell opcodes that keep their result until a stop, but ICDF, which reads A alone once it has a threshold. -/
def keepers : List ((Elt → Instr) × Nat × List Nat) := [(.accum, 0x28, [0]), (.count, 0x2A, [0]), (.topk, 0x33, [0]), (.argmax, 0x34, [0])]

/-- The ports among some operands. -/
def portsOf (f : FrameBits) (reads : List Nat) : List Nat := reads.filter fun i => srcOf f i = 0

/-- Whether a port's head has F set, at one of the ports. -/
def fillAt (s : State) (e : Elt) (ports : List Nat) : Bool := ports.any fun p => (((s.site e).head p).map (·.fill)).getD false

/-- An element at e has fired for g: it has consumed the heads of the listed ports and written the listed tokens into its outputs, and no
others. -/
structure Does (s : State) (g : GraphIx) (e : Elt) (ports : List Nat) (sends : List (Nat × Token)) (t : State) : Prop where
  fired : Fired s g e t
  eats  : Consumed s t e ports
  emits : ∀ p ∈ sends, Emits t e p.1 p.2
  still : ∀ o < 3, (∀ p ∈ sends, p.1 ≠ o) → (t.site e).out o = (s.site e).out o

/-- The element at e has emitted an error token of its own at output o, with lane 0 as given, and drains; it has consumed nothing. -/
structure Errs (s : State) (g : GraphIx) (e : Elt) (r : Bool) (o l0 : Nat) (t : State) : Prop where
  fired : Fired s g e t
  eats  : Consumed s t e []
  token : ∃ k, Emits t e o k ∧ k.kind = 0 ∧ k.err = true ∧ k.fill = false ∧ k.mask = 3 ∧ k.lane 0 = BitVec.ofNat 40 l0 ∧
            k.lane 1 = BitVec.ofNat 40 (s.locOf e)
  drain : ((t.site e).half r).drain = some []

/-- At every listed port stands a token that is no error token. -/
def NoErrors (s : State) (e : Elt) (ports : List Nat) : Prop := ∀ p ∈ ports, ∀ k, (s.site e).head p = some k → k.err = false

/-- A value stands at port p. -/
def ValueAt (s : State) (e : Elt) (p : Nat) (k : Token) : Prop := (s.site e).head p = some k ∧ k.kind = 0 ∧ k.err = false

/-- A stop or D stands at port p. -/
def StopAt (s : State) (e : Elt) (p : Nat) (k : Token) : Prop := (s.site e).head p = some k ∧ k.kind ≠ 0 ∧ k.err = false

/-- A token of integer lanes from lane 0 on (R209). -/
def ints (vs : List Int) : Token :=
  ⟨0, false, false, BitVec.ofNat 16 (2 ^ vs.length - 1), (List.range 16).map fun i => (BitVec.ofInt 32 (vs.getD i 0)).signExtend 40⟩

/-- The integer of a lane (R156). -/
def int (k : Token) (i : Nat) : Int := ((k.lane i).setWidth 32).toInt

/-- A stop of a level, all else zero (R91). -/
def stop (n : Nat) : Token := ⟨Fin.ofNat 8 (n + 1), false, false, 0, List.replicate 16 0⟩

/-- Whether a coordinate rises above the one before it (R213). -/
def Rises (prev : Option Int) (c : Int) : Prop := ∀ p, prev = some p → p < c

/-- A switch frame of opcode op whose router element may fire. -/
structure RouterAt (s : State) (g : GraphIx) (e : Elt) (f : FrameBits) (op : Nat) : Prop where
  may  : MayFire s g e true
  calm : (s.site e).rout.drain = none
  frame : (s.site e).switch = some f
  op   : opcOf f = op

/-- The decision of a control token: false where lane 0 is invalid, else a bit of the lane, or whether its integer is not zero (R197). -/
def Picks (f : FrameBits) (k : Token) : Prop :=
  k.valid 0 = true ∧
  (if (modOf f).getLsbD 13 then (k.lane 0).getLsbD ((modOf f).toNat / 2 ^ 8 % 32) = true else (k.lane 0).setWidth 32 ≠ (0 : BitVec 32))

/-- A tile frame of opcode op whose element may fire. -/
structure TileAt (s : State) (g : GraphIx) (e : Elt) (f : FrameBits) (op : Nat) : Prop where
  may   : MayFire s g e false
  calm  : (s.site e).elem.drain = none
  frame : (s.site e).tileFr = some f
  op    : opcOf f = op

/-- The tile at e has fired: its bytes now are m; other tiles and sites are as before, and of the module only the site, the tile, the graph's
counters and the list of uncorrectable words differ. -/
structure TileFired (s : State) (g : GraphIx) (e : Elt) (ports : List Nat) (sends : List (Nat × Token)) (m : SMap Byte) (t : State) : Prop where
  sites  : ∀ u, u ≠ e → t.site u = s.site u
  frames : (t.site e).comp = (s.site e).comp ∧ (t.site e).tileFr = (s.site e).tileFr ∧ (t.site e).switch = (s.site e).switch
  graph  : t.graph g = { s.graph g with act := (s.graph g).act + 1, logged := (t.graph g).logged, dead := (t.graph g).dead }
  graphs : ∀ h, h ≠ g → t.graph h = s.graph h
  bytes  : t.tileBytes e = m
  tiles  : ∀ u, siteKey u.core u.region u.site ≠ siteKey e.core e.region e.site → t.tileBytes u = s.tileBytes u
  eats   : Consumed s t e ports
  emits  : ∀ p ∈ sends, Emits t e p.1 p.2
  still  : ∀ o < 3, (∀ p ∈ sends, p.1 ≠ o) → (t.site e).out o = (s.site e).out o
  rest   : t = { s with sites := t.sites, graphs := t.graphs, tiles := t.tiles,
                        repair := { s.repair with badTiles := t.repair.badTiles } }

/-- The byte of a tile at an offset. -/
def tileByte (m : SMap Byte) (o : Nat) : Byte := m.get 0 o

/-- A tile's bytes after n bytes of v have been written at an offset: these, and no others, differ. -/
def Written (m : SMap Byte) (o n v : Nat) (m1 : SMap Byte) : Prop :=
  (∀ k < n, tileByte m1 (o + k) = BitVec.ofNat 8 (v / 2 ^ (8 * k))) ∧ ∀ a, (a < o ∨ o + n ≤ a) → tileByte m1 a = tileByte m a

/-- What an access of a tile opcode stores over the old lane: nothing, or a new lane (R304, R308). -/
def tileNew (op : Nat) (f : FrameBits) (old b c : Lane) : Option Lane :=
  let x := fun (a : Lane) => (a.setWidth 32).toInt
  let same := fun (a b : Lane) => if tileSlot f then a = b else a.setWidth 32 = b.setWidth 32
  match op with
  | 0x02 => some b
  | 0x08 => some ((BitVec.ofInt 32 (if tileSat f then max (-2 ^ 31) (min (x old + x b) (2 ^ 31 - 1)) else x old + x b)).signExtend 40)
  | 0x09 => some (if fadd old b .rne = wZero true then 0 else fadd old b .rne)
  | 0x0A => some (if tileSlot f then Machine.fmax old b else (BitVec.ofInt 32 (max (x old) (x b))).signExtend 40)
  | 0x0B => some b
  | 0x0C => some (if same old c then b else old)
  | _ => none

/-- The tile opcodes that access words or slots: constructor, code, ports. -/
def tileAccesses : List ((Elt → Instr) × Nat × List Nat) :=
  [(.sprd, 1, [0]), (.spwr, 2, [0, 1]), (.aadd, 8, [0, 1]), (.afadd, 9, [0, 1]), (.amax, 10, [0, 1]), (.axchg, 11, [0, 1]), (.acas, 12, [0, 1, 2])]

/-- The lanes of an access, lane by lane in ascending order: `ms` are the tile's bytes before lane i, `olds` what the lanes read. -/
def Accessed (op : Nat) (f : FrameBits) (mask : BitVec 16) (a b c : Token) (ms : Nat → SMap Byte) (olds : Nat → Lane) : Prop :=
  ∀ i < 16,
    let o := ((a.lane i).setWidth 32).toNat
    if mask.getLsbD i then
      olds i = tileRead (ms i) (tileSlot f) o ∧
      match tileNew op f (olds i) (b.lane i) (c.lane i) with
      | none => ms (i + 1) = ms i
      | some v => Written (ms i) o (if tileSlot f then 8 else 4) v.toNat (ms (i + 1))
    else ms (i + 1) = ms i

/-- The elements that drain alike: constructor, opcode, ports, and whether it is the router element (R102, R206). -/
def drainers (f : FrameBits) : List ((Elt → Instr) × Nat × List Nat × Bool) :=
  (plainCells ++ keepers).map (fun p => (p.1, p.2.1, portsOf f p.2.2, false)) ++
  [(.fscanc, 0x50, [0], false), (.fscand, 0x51, [0], false), (.fscanb, 0x52, if (modOf f).getLsbD 0 then [0, 1] else [0], false),
   (.fscant, 0x53, if (modOf f).getLsbD 0 then [0, 1] else [0], false), (.fisect, 0x54, [0, 1], false), (.funion, 0x55, [0, 1], false),
   (.frepeat, 0x56, [0, 1], false), (.freduce, 0x57, [0], false), (.fdrop, 0x58, [0], false),
   (.route, 1, [3], true), (.steer, 2, [3, 5], true), (.merge, 3, [3, 4, 5], true), (.join, 4, [3, 4], true), (.invar, 6, [3, 5], true),
   (.split, 7, [3], true), (.order, 8, [3, 4], true)]

/-- Matrix node e reads its operands from the tiles at sites 2 and 13 of its region (R358). -/
structure StepReady (s : State) (e : Elt) (f fa fb : FrameBits) (op : Nat) : Prop where
  node  : e.site = 5
  code  : op = 0x40 ∨ op = 0x41 ∨ op = 0x44
  may   : mxMayStep op f (s.site e) = true
  tileA : (s.site { e with site := 2 }).tileFr = some fa
  tileB : (s.site { e with site := 13 }).tileFr = some fb
  fullA : (s.site { e with site := 2 }).tile.ring.get 0 (s.site { e with site := 2 }).tile.cp = 0x80
  fullB : (s.site { e with site := 13 }).tile.ring.get 0 (s.site { e with site := 13 }).tile.cp = 0x80
  goodA : s.badWords { e with site := 2 } = []
  goodB : s.badWords { e with site := 13 } = []

/-- The bytes of the stage that a tile's consumer takes next. -/
def nextStage (s : State) (e : Elt) (f : FrameBits) : List Byte := (s.tileBytes e).getN 0 (stageOff f (s.site e).tile.cp) (tileBuf f)

/-- The tile at e has given up the stage at its consumer's pointer. -/
def Released1 (s t : State) (e : Elt) (f : FrameBits) : Prop :=
  (t.site e).tile.ring.get 0 (s.site e).tile.cp = 0 ∧ (t.site e).tile.cp = ((s.site e).tile.cp + 1) % max (tileDepth f) 1

/-! ### Address generators -/

/-- A generator may carry out opcode op: its graph runs and no fault stands, it has no drain in progress, fewer than 64 requests stand, what it
delivers in this turn does not stop it, and no plane of a group is still to be requested (R253, R277, R407, R438). -/
structure GenReady (s : State) (g : GenAt) (op : Nat) : Prop where
  runs : s.genRuns g op = true
  calm : (s.gen g).half.drain = none
  room : (s.gen g).line.length < 64
  go   : ((s.genDeliver g).gen g).halt = false
  paid : ∀ i ∈ ((s.genDeliver g).gen g).line, i.owed = none

/-- The next token of a generator's input, which is no error token. -/
def Meets (s : State) (g : GenAt) (t : Token) : Prop := (s.gen g).inq.toks.head? = some t ∧ t.err = false

/-- The turn of a generator leads to v, of which P holds; what ends a turn follows: the stages of a window that has opened are logged, and a pocket
above its size drains. -/
def Turn (i : Instr) (s : State) (g : GenAt) (P : State → Prop) : Prop :=
  ∃ v, exec i s = .next ((v.logStages g.graph).spill g) ∧ P v

/-- Of the module only the graph of a generator, counters of conversion events, translation caches and the free values taken differ, and of that
graph's generators only the generator itself. -/
structure OnlyGen (u v : State) (g : GenAt) : Prop where
  rest   : v = { u with cores := v.cores, graphs := v.graphs, micro := v.micro, tcs := v.tcs, choices := v.choices }
  cores  : ∀ c, v.core c = { u.core c with cvtev := (v.core c).cvtev }
  graphs : ∀ h, h ≠ g.graph → v.graph h = u.graph h
  gens   : ∀ n, n ≠ g.gen.val → (v.graph g.graph).genOf n = (u.graph g.graph).genOf n

/-- The generator has taken the head of its input. -/
def Took (u v : State) (g : GenAt) : Prop := (v.gen g).inq.toks = (u.gen g).inq.toks.tail

/-- A generator has appended tokens to what it delivers: stops and D are ready, values wait for their replies (R253). -/
def Queued (u v : State) (g : GenAt) (ts : List Token) : Prop :=
  (v.gen g).line = (u.gen g).line ++ ts.map fun k => Item.of k (k.kind ≠ 0)

/-- The generator's window is open. -/
def opened (u : State) (g : GenAt) : State := u.updGraph g.graph fun x => x.openWin g.gen.val

/-- A stop or D with all other fields zero. -/
def bareOf (k : Fin 8) : Token := ⟨k, false, false, 0, List.replicate 16 0⟩

/-- What the first request for elements brings: the header of a group of an SD format, else their value token (R162, R277, R312). -/
def asks (g : GenAt) (els : List (Nat × Int)) (u : State) : Except GErr (Token × State) := match (u.gen g).fmt with
  | .sd _ => gheader g els u
  | _ => gtoken g els u

/-- What a generator then delivers: that token; of an SD format the d planes, which it still has to request, and S0; and the stops that follow. -/
def items (q : Gen) (t : Token) (els : List (Nat × Int)) (after : List Token) : List Item :=
  Item.of t false :: (match q.fmt with
    | .sd d => (List.range d).map (fun j => ⟨bareOf 7, false, none, some (j, els)⟩) ++ [Item.of (stop 0) true]
    | _ => []) ++ after.map fun k => Item.of k true

/-- The copy of the hot-row map has been chosen: at a bag's first index, where none is yet (R318). -/
def HotChosen (u w : State) (g : GenAt) : Prop := if (u.gen g).hot = none then ghotCopy g u = .ok ((), w) else w = u

/-- Where the rows that a token names have their copies in the hot-row map (R318). -/
def Copies (w : State) (g : GenAt) (t : Token) (cp : Nat → Option Nat) : Prop := ∀ i < 16, t.valid i = true → ghotRow g (int t i) w = .ok (cp i, w)

/-- The graph's pockets performed before a request leaves; the windows they belong to are not replayable (R320, R405). -/
def released (u : State) (g : GenAt) : State :=
  (u.updGraph g.graph fun x => (x.pocket.map (·.win)).foldl Graph.kill (x.kill (x.genOf g.gen.val).win)).drainAll g.graph

/-- The stop n levels above a stop, at most S5; D stays D (R316, R347). -/
def raisedStop (t : Token) (n : Nat) : Token := if t.kind = 7 then bareOf 7 else bareOf (Fin.ofNat 8 (min 6 (t.kind.val + n)))

/-- An index lies in the extent of its level, and its element in the virtual range (R310, R311). -/
def IndexOk (q : Gen) (l : Nat) (k : Int) : Prop := 0 ≤ k ∧ k < (q.count l : Int) ∧ q.elemOk (k * q.stride l) = true

/-- The elements that valid lanes below n name by their indices, with the lanes (R315). -/
def named (q : Gen) (t : Token) (ok : Nat → Bool) (n : Nat) : List (Nat × Int) :=
  ((List.range n).filter fun i => t.valid i && ok i).map fun i => (i, int t i * q.stride 0)

/-- An entry of a chained generator on its way to the ordering buffer (R283, R319). -/
structure EntryOf (u v : State) (g : GenAt) (wave : Nat) (idx : Option Token) (vals : List Token) : Prop where
  way : ∃ e, ((v.graph g.graph).chain (gChain (u.gen g).f)).way = ((u.graph g.graph).chain (gChain (u.gen g).f)).way ++ [e] ∧
    e.id = (u.graph g.graph).nextId ∧ e.gen = g.gen.val ∧ e.wave = wave ∧ e.seq = gSeq (u.gen g).f ∧ e.pred = gPred (u.gen g).f ∧
    e.succ = gSucc (u.gen g).f ∧ e.idx = idx ∧ e.vals = vals
  id  : (v.graph g.graph).nextId = (u.graph g.graph).nextId + 1

/-- All eighteen generator opcodes. -/
def generators : List ((GenAt → Instr) × Nat) :=
  [(.affld, 0x01), (.affst, 0x02), (.gath, 0x03), (.scat, 0x04), (.rowg, 0x05), (.bagsum, 0x06), (.chld, 0x08), (.chst, 0x09), (.chamo, 0x0A),
   (.mnop, 0x0B), (.req, 0x0C), (.egress, 0x0D), (.camld, 0x10), (.camg, 0x11), (.camr, 0x12), (.cams, 0x13), (.pleat, 0x14), (.ringput, 0x15)]

/-- The opcodes that pass a stop as it is while they hold no part of a group. -/
def passers : List ((GenAt → Instr) × Nat) :=
  [(.gath, 0x03), (.scat, 0x04), (.chld, 0x08), (.chst, 0x09), (.chamo, 0x0A), (.mnop, 0x0B), (.req, 0x0C), (.egress, 0x0D), (.camld, 0x10), (.cams, 0x13)]

/-- The generator has emitted an error token of its own and drains, or, without an output, has raised the cause (R254, R309). -/
structure GenErrs (u t : State) (g : GenAt) (l0 : Nat) : Prop where
  input  : (t.gen g).inq = (u.gen g).inq
  token  : gOen (u.gen g).f = true → (t.gen g).half.drain = some [] ∧ ∃ k, (t.gen g).line = (u.gen g).line ++ [⟨k, true, none, none⟩] ∧
    k.kind = 0 ∧ k.err = true ∧ k.mask = 3 ∧ k.lane 0 = BitVec.ofNat 40 l0 ∧ k.lane 1 = BitVec.ofNat 40 (u.genLoc g)
  raised : gOen (u.gen g).f = false → ∃ i, (t.graph g.graph).raised = (u.graph g.graph).raised ++ [i] ∧ i.cause = BitVec.ofNat 8 l0
  graphs : ∀ h, h ≠ g.graph → t.graph h = u.graph h
  rest   : t = { u with graphs := t.graphs }
/-! ### Events of the device -/

/-- A core as a delivery leaves it (R23, R415): the saved registers, STATUS and pc; a barrier wait ends without a status. -/
structure Delivered (k : Core) (cause : Byte) (imp : Bool) (tval target : Word) (l : Core) : Prop where
  epc    : l.epc = k.pc
  tcause : l.tcause = BitVec.ofNat 64 (cause.toNat + if imp then 256 else 0)
  tval   : l.tval = tval
  status : l.status = entryStatus k
  pc     : l.pc = low52 target
  wait   : l.wait = match k.wait with
    | .barrier _ _ _ => .none
    | w => w
  core   : l = { k with epc := l.epc, tcause := l.tcause, tval := l.tval, status := l.status, pc := l.pc, wait := l.wait,
                        pending := l.pending, queues := l.queues, dispatch := l.dispatch }

/-- Bytes at a physical address that the device itself can write. -/
def Writable (s : State) (pa n : Nat) : Prop :=
  ∀ p ∈ addrs pa n, window p ≠ .none ∧ window p ≠ .block ∧ s.unstorable [p] = none

/-- The storage keys of n bytes at a physical address. -/
def keysAt (s : State) (pa n : Nat) : List Nat := (addrs pa n).map s.key

/-- The module differs in one graph only, which now is x. -/
structure GraphNow (s : State) (g : GraphIx) (x : Graph) (t : State) : Prop where
  graph  : t.graph g = x
  graphs : ∀ h, h ≠ g → t.graph h = s.graph h
  rest   : t = { s with graphs := t.graphs }

/-- Nothing stands in the way of a graph's events: it is live, no fault of it is raised or noted. -/
structure Clear (x : Graph) : Prop where
  live   : x.live = true
  raised : x.raised = []
  noted  : x.noted = []

/-- The acting records of a graph's instant of one opcode, in record order (R121). -/
def acting (x : Graph) (pres : BitVec 64) (op : Nat) : List Item2 :=
  (x.currentItems.filter (·.acts pres)).filter fun t => recOp t.r = op

/-- The value that a DSET record gives its register: its immediate, a delay register's latched value, or their integer sum
(R119, R121). -/
def dsetValue (x : Graph) (r : RecordBits) : Lane :=
  let src := x.dreg.get 0 (rfld r 40 5)
  let imm : Lane := BitVec.ofNat 40 (rfld r 0 40)
  match rfld r 50 2 with
  | 0 => imm
  | 1 => src
  | _ => (BitVec.ofInt 32 ((src.setWidth 32).toInt + (imm.setWidth 32).toInt)).signExtend 40

/-- The delay registers after DSET records have acted: each register as the last of them that names it says, the others as they
were. -/
def DelaysSet (x : Graph) (ts : List Item2) (now : SMap Lane) : Prop :=
  ∀ n < 32, ((∀ t ∈ ts, rfld t.r 45 5 ≠ n) → now.get 0 n = x.dreg.get 0 n) ∧
    ∀ a t b, ts = a ++ t :: b → rfld t.r 45 5 = n → (∀ u ∈ b, rfld u.r 45 5 ≠ n) → now.get 0 n = dsetValue x t.r

/-- Dvorrok has answered the first request of a mailbox: the response slot holds the command, a status and data from byte 8 on,
BUSY is 0, and the request is no longer waiting (R472). -/
structure Answered (s : State) (m : Mailbox) (status : Byte) (data : List Byte) (second : Option (List Byte)) (t : State) : Prop where
  rsp   : (t.dv.box m).rsp = ([(s.dv.box m).req.getD 0 0, status] ++ List.replicate 6 (0 : Byte) ++ data ++ List.replicate 64 0).take 64
  rsp2  : (t.dv.box m).rsp2 = second
  busy  : (t.dv.box m).busy = false
  order : t.dv.order = s.dv.order.erase m
  other : ∀ n, n ≠ m → t.dv.box n = s.dv.box n

/-- Of the module only Dvorrok's own state differs. -/
def OnlyDvorrok (s t : State) : Prop := t = { s with dv := t.dv }

/-- Every request that waits for a collective has got a status, a detail and S0 at its generator (R371). -/
def Replied (s t : State) (rs : List CollReq) (status detail : Nat) : Prop :=
  ∀ r ∈ rs, ∀ a k b, (s.gen r.src).line = a ++ ⟨k, false, some r.item, none⟩ :: b → (∀ i ∈ a ++ b, ∀ q ∈ rs, i.wait ≠ some q.item) →
    ∃ v, (t.gen r.src).line = a ++ ⟨v, false, none, none⟩ :: ⟨bareOf 1, true, none, none⟩ :: b ∧
      v.kind = 0 ∧ v.mask = 3 ∧ v.lane 0 = BitVec.ofNat 40 status ∧ v.lane 1 = BitVec.ofNat 40 detail

/-- The sum of two elements of data type 2 modulo 2^32 (R373). -/
def sums (bs : List (List Byte)) (i : Nat) : Nat := (bs.map fun b => byteNat b (4 * i) 4).foldl (· + ·) 0 % 2 ^ 32

end Sys2Proof.Claims
end

