-- ==== Sys2Proof/Certificates/Slice0/Obligations.lean ====
section
/-! DEFINITION. The statements for the provers. Each says what it states; OBLIGATIONS.json names the rules of the spec. -/

open Sys2Proof Sys2Proof.Machine Sys2Proof.Claims

/-! ### Integers, branches, memory (04) -/

/-- R63: the register operations but for division write their result to xd, whatever the operands, and change nothing else.
R64: division and remainder, row by row in the order of the table, and the identity that binds quotient and remainder
modulo 2^64.
R65, R66: the immediate operations.
R67, R68: LUI and PCREL write the sign-extended upper immediate, alone or added to pc; CLZ and POPC count bits. -/
def Obligations.IntegerOperations : Prop :=
  (∀ (s : State) (d a b : Reg),
  let x := s.reg a
  let y := s.reg b
  let n := y.toNat % 64
  Gives (.add d a b) s (Wrote s d (BitVec.ofNat 64 (x.toNat + y.toNat))) ∧
  Gives (.sub d a b) s (Wrote s d (BitVec.ofInt 64 (x.toNat - y.toNat))) ∧
  Gives (.mul d a b) s (Wrote s d (BitVec.ofNat 64 (x.toNat * y.toNat))) ∧
  Gives (.mulh d a b) s (Wrote s d ((x.signExtend 128 * y.signExtend 128).extractLsb' 64 64)) ∧
  Gives (.mulhu d a b) s (Wrote s d ((x.setWidth 128 * y.setWidth 128).extractLsb' 64 64)) ∧
  Gives (.and d a b) s (Wrote s d (x &&& y)) ∧
  Gives (.or d a b) s (Wrote s d (x ||| y)) ∧
  Gives (.xor d a b) s (Wrote s d (x ^^^ y)) ∧
  Gives (.shl d a b) s (Wrote s d (BitVec.ofNat 64 (x.toNat * 2 ^ n))) ∧
  Gives (.shr d a b) s (Wrote s d (BitVec.ofNat 64 (x.toNat / 2 ^ n))) ∧
  Gives (.sra d a b) s (Wrote s d (if x.getLsbD 63 then ~~~(~~~x >>> n) else x >>> n)) ∧
  Gives (.slt d a b) s (Wrote s d (one (x.toInt < y.toInt))) ∧
  Gives (.sltu d a b) s (Wrote s d (one (x.toNat < y.toNat))) ∧
  Gives (.min d a b) s (Wrote s d (if x.toInt ≤ y.toInt then x else y)) ∧
  Gives (.max d a b) s (Wrote s d (if x.toInt ≥ y.toInt then x else y))) ∧
  (∀ (s : State) (d a b : Reg),
  let x := s.reg a
  let y := s.reg b
  let low : Prop := x = 0x8000000000000000 ∧ y = 0xFFFFFFFFFFFFFFFF
  ∃ q r uq ur : Word,
    Gives (.div d a b) s (Wrote s d q) ∧ Gives (.rem d a b) s (Wrote s d r) ∧
    Gives (.divu d a b) s (Wrote s d uq) ∧ Gives (.remu d a b) s (Wrote s d ur) ∧
    (y = 0 → q = 0xFFFFFFFFFFFFFFFF ∧ r = x ∧ uq = 0xFFFFFFFFFFFFFFFF ∧ ur = x) ∧
    (y ≠ 0 → uq.toNat = x.toNat / y.toNat ∧ ur.toNat = x.toNat % y.toNat) ∧
    (low → q = 0x8000000000000000 ∧ r = 0) ∧
    (y ≠ 0 → ¬low → q.toInt = x.toInt.tdiv y.toInt ∧ r.toInt = x.toInt.tmod y.toInt) ∧
    x = q * y + r ∧ x = uq * y + ur) ∧
  (∀ (s : State) (d a : Reg) (i : BitVec 12) (n : BitVec 6),
  let x := s.reg a
  let k := signed i
  Gives (.addi d a i) s (Wrote s d (BitVec.ofInt 64 (x.toInt + i.toInt))) ∧
  Gives (.andi d a i) s (Wrote s d (x &&& k)) ∧
  Gives (.ori d a i) s (Wrote s d (x ||| k)) ∧
  Gives (.xori d a i) s (Wrote s d (x ^^^ k)) ∧
  Gives (.slti d a i) s (Wrote s d (one (x.toInt < i.toInt))) ∧
  Gives (.shli d a n) s (Wrote s d (BitVec.ofNat 64 (x.toNat * 2 ^ n.toNat))) ∧
  Gives (.shri d a n) s (Wrote s d (BitVec.ofNat 64 (x.toNat / 2 ^ n.toNat))) ∧
  Gives (.srai d a n) s (Wrote s d (if x.getLsbD 63 then ~~~(~~~x >>> n.toNat) else x >>> n.toNat))) ∧
  (∀ (s : State) (d a : Reg) (i : BitVec 20),
  let x := s.reg a
  Gives (.lui d i) s (Wrote s d (BitVec.ofInt 64 (i.toInt * 4096))) ∧
  Gives (.pcrel d i) s (Wrote s d (BitVec.ofInt 64 (s.me.pc.toNat + i.toInt * 4096))) ∧
  (∃ n : Nat, n ≤ 64 ∧ Gives (.clz d a) s (Wrote s d (BitVec.ofNat 64 n)) ∧
    x.toNat < 2 ^ (64 - n) ∧ (n < 64 → 2 ^ (63 - n) ≤ x.toNat)) ∧
  Gives (.popc d a) s (Wrote s d (BitVec.ofNat 64 (((List.range 64).map fun i => (x.getLsbD i).toNat).sum))))

/-- R69: a branch whose condition holds goes to its target where that lies in the virtual range and else traps 0x20; one
whose condition does not hold goes on, whatever its offset; no branch writes a register.
R70, R71: JAL and JALR link and jump; the target of JALR comes from the old base with bits [1:0] cleared; a target
outside the virtual range traps 0x20 and leaves xd unchanged. -/
def Obligations.BranchesAndJumps : Prop :=
  (∀ (s : State) (a b : Reg) (i : BitVec 14) (br : Reg → Reg → BitVec 14 → Instr) (c : Prop),
  let x := s.reg a
  let y := s.reg b
  let t := BitVec.ofInt 64 (s.me.pc.toNat + i.toInt * 4)
  s.me.legal = true →
  (br, c) ∈ ([(.beq, x = y), (.bne, x ≠ y), (.blt, x.toInt < y.toInt), (.bge, x.toInt ≥ y.toInt),
    (.bltu, x.toNat < y.toNat), (.bgeu, x.toNat ≥ y.toNat)] : List ((Reg → Reg → BitVec 14 → Instr) × Prop)) →
  (¬c → Gives (br a b i) s (WentTo s (s.me.pc + 4))) ∧
  (c → t.toNat < 2 ^ 52 → Gives (br a b i) s (WentTo s t)) ∧
  (c → 2 ^ 52 ≤ t.toNat → CanTrap s → Gives (br a b i) s (Trapped s 0x20 t))) ∧
  (∀ (s : State) (d a : Reg) (i : BitVec 20) (j : BitVec 12),
  let t := BitVec.ofInt 64 (s.me.pc.toNat + i.toInt * 4)
  let u := BitVec.ofInt 64 ((s.reg a).toInt + j.toInt)
  s.me.legal = true →
  (t.toNat < 2 ^ 52 → Gives (.jal d i) s (Linked s d (s.me.pc + 4) t)) ∧
  (u.toNat < 2 ^ 52 → Gives (.jalr d a j) s (Linked s d (s.me.pc + 4) (BitVec.ofNat 64 (u.toNat / 4 * 4)))) ∧
  (2 ^ 52 ≤ t.toNat → CanTrap s → Gives (.jal d i) s (Trapped s 0x20 t)) ∧
  (2 ^ 52 ≤ u.toNat → CanTrap s → Gives (.jalr d a j) s (Trapped s 0x20 u)))

/-- R72: a load whose address translates to storage that can be delivered writes the extended bytes to xd; it leaves memory
and everything else alone, but for the translations that the core's TLB takes up (R264).
R73: a store whose address translates to storage that takes it writes the low bytes of xs2 at the address that xs1 and
the offset give, and no other byte of memory. -/
def Obligations.LoadsAndStores : Prop :=
  (∀ (s s1 : State) (d a : Reg) (i : BitVec 12) (pas : List Nat) (ld : Reg → Reg → BitVec 12 → Instr)
    (n : Nat) (sx : Bool), (ld, n, sx) ∈ loads →
  s.span (address s a i) n .load = .ok pas s1 → s.undeliverables pas = none → isBlock pas = false →
  Gives (ld d a i) s (Loaded s d (loaded sx (s.bytesAt pas)))) ∧
  (∀ (s s1 : State) (a b : Reg) (i : BitVec 12) (pas : List Nat) (st : Reg → Reg → BitVec 12 → Instr)
    (n : Nat), (st, n) ∈ stores →
  s.span (address s a i) n .store = .ok pas s1 → s.storeRefused pas = none → s.unstorable pas = none →
  (∀ p ∈ pas, p < blockBase) →
  Gives (st a b i) s (Stored s pas (s.reg b).toNat))

/-- R22, R59, R263: a load or a store that runs over the end of the virtual range traps 0x20 with its address; one whose
walk fails traps with the walk's cause; a load of bytes that cannot be delivered traps with their cause, and a store that is
refused with 0x2C or 0xB4; none of them writes a register or a byte of memory. -/
def Obligations.AccessTraps : Prop := ∀ (s : State) (d a b : Reg) (i : BitVec 12), CanTrap s →
  let va := address s a i
  (∀ ld n sx, (ld, n, sx) ∈ loads →
    (2 ^ 52 < va.toNat + n → Gives (ld d a i) s (Trapped s 0x20 va)) ∧
    (∀ c v, va.toNat + n ≤ 2 ^ 52 → s.span va n .load = .trap c v → Gives (ld d a i) s (Trapped s c.toNat v)) ∧
    (∀ pas s1 c, s.span va n .load = .ok pas s1 → s.undeliverables pas = some c → Gives (ld d a i) s (Trapped s c.toNat va))) ∧
  (∀ st n, (st, n) ∈ stores →
    (2 ^ 52 < va.toNat + n → Gives (st a b i) s (Trapped s 0x20 va)) ∧
    (∀ c v, va.toNat + n ≤ 2 ^ 52 → s.span va n .store = .trap c v → Gives (st a b i) s (Trapped s c.toNat v)) ∧
    (∀ pas s1 c, s.span va n .store = .ok pas s1 → s.storeRefused pas = some c →
      (c = 0x2C ∨ c = 0xB4) ∧ Gives (st a b i) s (Trapped s c.toNat va)))
/-! ### CELL, CELL3 (04) -/

/-- R13, R76, R77: CELL and CELL3 write the lane that the firing gives, bits [63:40] zero; the integer opcodes wrap to 32 bits or
saturate by MOD; a code that is no compute-cell opcode traps 0xA3. -/
def Obligations.CellInstructions : Prop := ∀ (s : State) (d a b c : Reg) (op : BitVec 8),
  let x := intLane (s.reg a)
  let y := intLane (s.reg b)
  let z := intLane (s.reg c)
  let m := s.me.cmodMod
  let clamp : Int → Int := fun n => if modSat m then max (-2 ^ 31) (min n (2 ^ 31 - 1)) else n
  let lane : Reg → Lane := fun r => (s.reg r).setWidth 40
  (isCellCode op.toNat = true →
    Gives (.cell d a b op) s (Wrote s d ((cellEval op.toNat m (lane a) (lane b) 0).2.setWidth 64))) ∧
  (isCellCode s.me.cmodCop = true →
    Gives (.cell3 d a b c) s (Wrote s d ((cellEval s.me.cmodCop m (lane a) (lane b) (lane c)).2.setWidth 64))) ∧
  (isCellCode op.toNat = false → CanTrap s →
    Gives (.cell d a b op) s (Trapped s 0xA3 (BitVec.ofNat 64 ((encodeNat (.cell d a b op)).getD 0)))) ∧
  (isCellCode s.me.cmodCop = false → CanTrap s →
    Gives (.cell3 d a b c) s (Trapped s 0xA3 (BitVec.ofNat 64 ((encodeNat (.cell3 d a b c)).getD 0)))) ∧
  Gives (.cell d a b 0x10) s (Wrote s d (intWord (clamp (x + y)))) ∧
  Gives (.cell d a b 0x11) s (Wrote s d (intWord (clamp (x - y)))) ∧
  Gives (.cell d a b 0x12) s (Wrote s d (intWord (clamp (x * y)))) ∧
  Gives (.cell d a b 0x1A) s (Wrote s d (intWord (min x y))) ∧
  Gives (.cell d a b 0x1B) s (Wrote s d (intWord (max x y))) ∧
  (s.me.cmodCop = 0x13 → Gives (.cell3 d a b c) s (Wrote s d (intWord (clamp (x * y + z)))))

/-! ### Ordering, atomics, messages, barriers (13, 23) -/

/-- R323: FENCE goes on, whatever its scope; from then on no fetch of the core sees a word that its stores have replaced.
R324: AMO on an aligned word of storage that can be read and takes a store, sent over networks that lose nothing, reads and
writes it in one step; xd gets the old value sign-extended. -/
def Obligations.FencesAndAtomics : Prop :=
  (∀ (s : State) (scope : BitVec 3),
  Gives (.fence scope) s fun t =>
    t.me = { s.me with istale := [], pc := s.me.pc + 4 } ∧ OnlyMe s t ∧
    ∀ k now, t.fetchChoice k now = (now, t)) ∧
  (∀ (s s1 : State) (d a b : Reg) (o : BitVec 3) (z : BitVec 1) (scope : BitVec 3) (pas : List Nat),
  let n := if z = 1 then 8 else 4
  let va := s.reg a
  let word : Word → BitVec (8 * n) := fun w => w.setWidth (8 * n)
  let old : BitVec (8 * n) := BitVec.ofNat (8 * n) (leNat (s.bytesAt pas))
  o.toNat ≤ 6 → va.toNat + n ≤ 2 ^ 52 → va.toNat % n = 0 →
  s.span va n .store = .ok pas s1 → s.storeRefused pas = none → s.undeliverables pas = none →
  (∀ p ∈ pas, p < blockBase) → s.losses.headD .no = .no →
  (∀ r ∈ s.replies, ¬(r.src = s.cur.val ∧ r.id = s.me.atomId)) →
  Gives (.amo d a b o z scope) s
    (Swapped s pas d (old.signExtend 64) (atomicNew o old (word (s.reg b)) (word (s.reg d))).toNat))

/-- R322, R324: AMO traps 0x20 past the end of the range, then 0x28 for a misaligned address, then as its translation does,
then 0x2C or 0xB4; a send that the networks lose leaves the core waiting for the reply.
R322: a copy of an atomic that reaches its target is applied where the target keeps no reply to it, and else only answered
with the reply kept; either way the source's register is written and the core goes on, once.
R322: an unanswered atomic is sent again only after 65,536 cycles, with the same id and at most eight times; then its core
takes 0x2B with the address, and no register is written. -/
def Obligations.AtomicDelivery : Prop :=
  (∀ (s : State) (d a b : Reg) (o : BitVec 3) (z : BitVec 1) (scope : BitVec 3),
  let n := if z = 1 then 8 else 4
  let va := s.reg a
  let i := Instr.amo d a b o z scope
  CanTrap s →
  (2 ^ 52 < va.toNat + n → Gives i s (Trapped s 0x20 va)) ∧
  (va.toNat + n ≤ 2 ^ 52 → va.toNat % n ≠ 0 → Gives i s (Trapped s 0x28 va)) ∧
  (∀ c v, va.toNat + n ≤ 2 ^ 52 → va.toNat % n = 0 → s.span va n .store = .trap c v → Gives i s (Trapped s c.toNat v)) ∧
  (∀ pas s1 c, va.toNat + n ≤ 2 ^ 52 → va.toNat % n = 0 → s.span va n .store = .ok pas s1 → s.storeRefused pas = some c →
    Gives i s (Trapped s c.toNat va)) ∧
  (∀ pas s1 r, va.toNat + n ≤ 2 ^ 52 → va.toNat % n = 0 → s.span va n .store = .ok pas s1 → s.storeRefused pas = none →
    s.undeliverables pas = none → s.losses = .request :: r →
    Gives i s fun t => t.me.wait = .atomic s.me.atomId ∧ t.me.pc = s.me.pc ∧ t.losses = r ∧
      (∀ x, t.reg x = s.reg x) ∧ (∀ k, t.byteAt k = s.byteAt k) ∧
      ∃ at1, t.atoms = at1 :: s.atoms ∧ at1.src = s.cur.val ∧ at1.id = s.me.atomId ∧ at1.sends = 1 ∧ at1.addr = va)) ∧
  (∀ (s : State) (src : CoreIx) (id : BitVec 16) (at1 : Atomic),
  s.atomic src.val id = some at1 →
  (∀ r, s.replies.find? (fun r => r.target = at1.target && r.src = at1.src && r.id = at1.id) = some r →
    Gives (.atomicReceive src.val id) s fun t =>
      t.mem = s.mem ∧ t.replies = s.replies ∧ t.atomic src.val id = none ∧ (∀ c, c ≠ src → t.core c = s.core c) ∧
      Released (s.core src) at1.rd (if at1.wide then BitVec.ofNat 64 r.old.toNat else (r.old.setWidth 32).signExtend 64) (t.core src)) ∧
  (s.replies.find? (fun r => r.target = at1.target && r.src = at1.src && r.id = at1.id) = none → isBlock at1.pas = false →
    let n := if at1.wide then 64 else 32
    let old : BitVec n := BitVec.ofNat n (leNat (s.bytesAt at1.pas))
    Gives (.atomicReceive src.val id) s fun t =>
      Released (s.core src) at1.rd (old.signExtend 64) (t.core src) ∧ t.atomic src.val id = none ∧
      (∀ k, k ∉ at1.pas.map s.key → t.byteAt k = s.byteAt k) ∧
      ∃ r, r ∈ t.replies ∧ r.target = at1.target ∧ r.src = at1.src ∧ r.id = at1.id ∧ r.old.toNat = leNat (s.bytesAt at1.pas) % 2 ^ 64)) ∧
  (∀ (s : State) (src : CoreIx) (id : BitVec 16) (at1 : Atomic),
  s.atomic src.val id = some at1 →
  (s.cycle < at1.since + 65536 → exec (.atomicResend src.val id) s = .next s) ∧
  (at1.since + 65536 ≤ s.cycle → at1.sends < 8 → ∀ r, s.losses = .request :: r →
    Gives (.atomicResend src.val id) s fun t =>
      t.atomic src.val id = some { at1 with sends := at1.sends + 1, since := s.cycle } ∧ t.cores = s.cores ∧ t.mem = s.mem ∧
      t.losses = r) ∧
  (at1.since + 65536 ≤ s.cycle → 8 ≤ at1.sends → (s.core src).legal = true → (s.core src).status.getLsbD 4 = false →
    Gives (.atomicResend src.val id) s fun t =>
      (t.core src).tcause = 0x2B ∧ (t.core src).tval = at1.addr ∧ (t.core src).epc = (s.core src).pc ∧
      (t.core src).pc = low52 (s.core src).tvec ∧ (t.core src).status = entryStatus (s.core src) ∧ (t.core src).wait = .none ∧
      (t.core src).x = (s.core src).x ∧ t.mem = s.mem ∧ t.atomic src.val id = none ∧ ∀ c, c ≠ src → t.core c = s.core c))

/-- R325, R326: CHSEND to an endpoint of a core of this module that is not stopped puts bits [62:0] of xs2 at the end of that
queue; with 16 messages in it, the core waits; a bad destination traps 0xA7; a message for another module leaves.
R327: CHRECV and CHPOLL take the oldest message of the own endpoint into xd; with none there, CHRECV waits and CHPOLL writes
the status word of 0xA5 and removes nothing.
R325, R326: a message from elsewhere enters the endpoint of a core that is not stopped, or stays on its way while the queue
is full. -/
def Obligations.Channels : Prop :=
  (∀ (s : State) (a b : Reg) (e : BitVec 6),
  let v := s.reg a
  let c : CoreIx := Fin.ofNat 256 (v.toNat % 256)
  let m := (s.reg b).setWidth 63
  (s.goodEndpoint v = true → (v.getLsbD 14 = false ∨ v.toNat / 256 % 64 = s.modnum) → (s.core c).run ≠ .stopped →
    (16 ≤ ((s.core c).queue e).length → Retries (.chsend a b e) s) ∧
    (((s.core c).queue e).length < 16 → (s.core c).bound e = false →
      Gives (.chsend a b e) s fun t =>
        (t.core c).queue e = (s.core c).queue e ++ [(.recv, m)] ∧ t.me.pc = s.me.pc + 4 ∧
        (∀ r, t.reg r = s.reg r) ∧ (∀ d, d ≠ c → d ≠ s.cur → t.core d = s.core d) ∧ t = { s with cores := t.cores }) ∧
    (((s.core c).queue e).length < 16 → (s.core c).bound e = true → (s.core c).enabled e = true →
      Gives (.chsend a b e) s fun t =>
        (t.core c).queue e = (s.core c).queue e ++ [(.disp, m)] ∧ (t.core c).dispatch = (s.core c).dispatch ++ [e] ∧
        t.me.pc = s.me.pc + 4 ∧ t = { s with cores := t.cores }) ∧
    (((s.core c).queue e).length < 16 → (s.core c).bound e = true → (s.core c).enabled e = false →
      Gives (.chsend a b e) s fun t =>
        (t.core c).queue e = (s.core c).queue e ++ [(.parked, m)] ∧ (t.core c).dispatch = (s.core c).dispatch ++ [e] ∧
        (t.core c).pending = (s.core c).pending ++ [⟨0xA6, true, BitVec.ofNat 64 e.toNat, []⟩] ∧
        t.me.pc = s.me.pc + 4 ∧ t = { s with cores := t.cores })) ∧
  (s.goodEndpoint v = false → CanTrap s → Gives (.chsend a b e) s (Trapped s 0xA7 v)) ∧
  (s.goodEndpoint v = true → v.getLsbD 14 = true → v.toNat / 256 % 64 ≠ s.modnum →
    Gives (.chsend a b e) s fun t =>
      t.sent = s.sent ++ [⟨v.toNat / 256 % 64, v.toNat % 256, e, m⟩] ∧ t.me = { s.me with pc := s.me.pc + 4 } ∧
      t = { s with cores := t.cores, sent := t.sent })) ∧
  (∀ (s : State) (d : Reg) (e : BitVec 6) (m : BitVec 63) (q : List (MsgUse × BitVec 63)),
  (s.me.queue e = (.recv, m) :: q →
    ∀ i ∈ [Instr.chrecv d e, Instr.chpoll d e], Gives i s fun t =>
      RegsWritten s.me d (m.setWidth 64) t.me ∧ t.me.pc = s.me.pc + 4 ∧ t.me.queue e = q ∧
      (∀ f, f ≠ e → t.me.queue f = s.me.queue f) ∧
      t.me = { s.me with x := t.me.x, spoiled := t.me.spoiled, pc := t.me.pc, queues := t.me.queues } ∧ OnlyMe s t) ∧
  ((∀ p ∈ s.me.queue e, p.1 ≠ .recv) →
    Retries (.chrecv d e) s ∧ Gives (.chpoll d e) s (Wrote s d 0x80A5000000000000))) ∧
  (∀ (s : State) (c : CoreIx) (e : BitVec 6) (m : BitVec 63), (s.core c).run ≠ .stopped →
  (((s.core c).queue e).length < 16 →
    Gives (.messageArrive c e m) s fun t =>
      ((t.core c).queue e).map (·.2) = ((s.core c).queue e).map (·.2) ++ [m] ∧
      (∀ f, f ≠ e → (t.core c).queue f = (s.core c).queue f) ∧ (∀ d, d ≠ c → t.core d = s.core d) ∧ t = { s with cores := t.cores }) ∧
  (16 ≤ ((s.core c).queue e).length →
    Gives (.messageArrive c e m) s fun t => t = { s with inputs := s.inputs ++ [.messageArrive c e m] }))

/-- R328, R329: BARINIT and BARINV. A count outside 1 to 65,535 traps 0x2A with xs2, before the entry of a table barrier is reached (R59).
R329: BARARR. The last arrival of a phase completes it and releases the waiters whose target it reaches; a FREE barrier traps
0x2A.
R328, R329: BARWAIT goes on at once with 2 at a FREE barrier and with 0 where the target is reached, and else waits; a badly
named barrier traps 0x2A at each of the four instructions. -/
def Obligations.Barriers : Prop :=
  (∀ (s : State) (a b : Reg), Inv s → s.me.wait = .none →
  let v := s.reg a
  let n := s.reg b
  (s.goodBarrier v false = true → n.toNat = 0 ∨ 65535 < n.toNat → CanTrap s → Gives (.barinit a b) s (Trapped s 0x2A n)) ∧
  (BarrierAt s v false →
  (1 ≤ n.toNat → n.toNat ≤ 65535 →
    Gives (.barinit a b) s (Barred s (barName v) ⟨true, n.setWidth 16, 0, 0⟩ (fun _ => true) 1)) ∧
  ((s.getBar (barName v)).active = true → Gives (.barinv a) s (Barred s (barName v) .free (fun _ => true) 2)) ∧
  ((s.getBar (barName v)).active = false → Gives (.barinv a) s (WentTo s (s.me.pc + 4))))) ∧
  (∀ (s : State) (a : Reg), Inv s → s.me.wait = .none →
  let v := s.reg a
  let b := s.getBar (barName v)
  BarrierAt s v false →
  (b.active = true → b.arr.toNat + 1 < b.count.toNat →
    Gives (.bararr a) s (Barred s (barName v) { b with arr := b.arr + 1 } (fun _ => false) 0)) ∧
  (b.active = true → b.arr.toNat + 1 = b.count.toNat →
    Gives (.bararr a) s (Barred s (barName v) { b with arr := 0, gen := b.gen + 1 }
      (fun target => decide ((b.gen + 1 - target).toNat < 2 ^ 15)) 0)) ∧
  (b.active = false → CanTrap s → Gives (.bararr a) s (Trapped s 0x2A v))) ∧
  (∀ (s : State) (d a b : Reg),
  let v := s.reg a
  let target : BitVec 16 := BitVec.ofNat 16 (v.toNat / 2 ^ 32)
  let bar := s.getBar (barName v)
  (BarrierAt s v true →
    (bar.active = false → Gives (.barwait d a) s (Wrote s d 2)) ∧
    (bar.active = true → (bar.gen - target).toNat < 2 ^ 15 → Gives (.barwait d a) s (Wrote s d 0)) ∧
    (bar.active = true → 2 ^ 15 ≤ (bar.gen - target).toNat →
      Gives (.barwait d a) s fun t => t.me = { s.me with wait := .barrier (barName v) target d } ∧ OnlyMe s t)) ∧
  (CanTrap s → s.goodBarrier v false = false → ∀ i ∈ [Instr.barinit a b, .bararr a, .barinv a], Gives i s (Trapped s 0x2A v)) ∧
  (CanTrap s → s.goodBarrier v true = false → Gives (.barwait d a) s (Trapped s 0x2A v)))

/-! ### Traps, privilege, control registers (01, 03, 23) -/

/-- R23, R57, R59, R420: TRAP, BRK, a word that is no instruction and a fetch that fails take a precise trap with EPC their own
address: saved IE and SUP, the cause, TVAL, and pc at TVEC.
R23, R415: a trap raised while NEST is 1 stops the core; 0xA0 goes imprecise to core 0 of its die, or of the next die for a core
0, with the stopped core's number, and so do the causes not yet delivered.
R413, R414, R415, R419, R423: a core that is between instructions with IE 1 and NEST 0 takes its oldest undelivered cause, its
fault record standing at FREC where FREC is not zero; with none, it takes the first message whose endpoint's entry is bound and
enabled, at the handler's address. Each is trap entry with EPC the pc. -/
def Obligations.TrapsAndDeliveries : Prop :=
  (∀ (s : State) (code : BitVec 12) (w : BitVec 32) (c : Byte) (v : Word), CanTrap s →
  Gives (.trap code) s (Trapped s 0xA9 (BitVec.ofNat 64 code.toNat)) ∧
  Gives (.brk code) s (Trapped s 0xAA (BitVec.ofNat 64 code.toNat)) ∧
  Gives (.illegalInstruction w) s (Trapped s 0xA3 (BitVec.ofNat 64 w.toNat)) ∧
  Gives (.fetchFault c v) s (Trapped s c.toNat v)) ∧
  (∀ (s : State) (code : BitVec 12),
  let r : CoreIx := if s.cur.val % 64 = 0 then Fin.ofNat 256 ((s.cur.val / 64 + 1) % 4 * 64) else Fin.ofNat 256 (s.cur.val / 64 * 64)
  s.me.status.getLsbD 4 = true → (s.core r).run ≠ .stopped →
  ∀ i ∈ [Instr.trap code, .brk code], Gives i s fun t =>
    t.me = { s.me with run := .stopped, pending := [], wait := .none } ∧
    t.core r = { s.core r with pending := (s.core r).pending ++ ⟨0xA0, true, BitVec.ofNat 64 s.cur.val, []⟩ :: s.me.pending } ∧
    (∀ c, c ≠ s.cur → c ≠ r → t.core c = s.core c) ∧ t = { s with cores := t.cores }) ∧
  (∀ (s : State) (c : CoreIx),
  let k := s.core c
  k.legal = true → k.takesDelivery = true →
  (∀ p r, k.pending = p :: r →
    Gives (.graphCauseDelivery c) s fun t =>
      Delivered k p.cause p.imp p.tval k.tvec (t.core c) ∧ (t.core c).pending = r ∧ (t.core c).queues = k.queues ∧
      (t.core c).dispatch = k.dispatch ∧ (∀ d, d ≠ c → t.core d = s.core d) ∧ (k.frec = 0 → t.mem = s.mem) ∧
      (k.frec ≠ 0 → Writable s k.frec.toNat p.record.length → Bytes s (keysAt s k.frec.toNat p.record.length) (leNat p.record) t)) ∧
  (∀ e d1 d2 q1 m q2, k.pending = [] → k.dispatch = d1 ++ e :: d2 → k.bound e = true → k.enabled e = true →
    (∀ f ∈ d1, k.bound f = false ∨ k.enabled f = false) → k.queue e = q1 ++ (.disp, m) :: q2 → (∀ p ∈ q1, p.1 ≠ .disp) →
    Gives (.messageDispatch c) s fun t =>
      Delivered k 0xA8 false (m.setWidth 64) (kept (k.handler e) 2 52) (t.core c) ∧ (t.core c).pending = [] ∧
      (t.core c).dispatch = d1 ++ d2 ∧ (t.core c).queue e = q1 ++ q2 ∧ (∀ f, f ≠ e → (t.core c).queue f = k.queue f) ∧
      (∀ d, d ≠ c → t.core d = s.core d) ∧ t.mem = s.mem))

/-- R421, R422, R424: TRET restores IE and SUP and goes to EPC; WAITI goes on where a delivery is pending, and else the core waits;
HDLSET writes the entry of its endpoint, bits [63:52] as zero, and where EN and BIND are 1 its parked messages become dispatches
(R417). -/
def Obligations.SystemInstructions : Prop := ∀ (s : State) (a : Reg) (e : BitVec 6), s.me.legal = true → s.me.status.getLsbD 2 = true →
  let k := s.me
  Gives .tret s (fun t => t.me = { k with pc := low52 k.epc, status := t.me.status } ∧ OnlyMe s t ∧
    t.me.status.getLsbD 0 = k.status.getLsbD 1 ∧ t.me.status.getLsbD 1 = k.status.getLsbD 1 ∧
    t.me.status.getLsbD 2 = k.status.getLsbD 3 ∧ t.me.status.getLsbD 3 = k.status.getLsbD 3 ∧ t.me.status.toNat < 16) ∧
  ((k.pending ≠ [] ∨ ∃ f ∈ k.dispatch, (k.handler f).getLsbD 0 = true ∧ (k.handler f).getLsbD 1 = true) →
    Gives .waiti s (WentTo s (k.pc + 4))) ∧
  (k.pending = [] → (∀ f ∈ k.dispatch, (k.handler f).getLsbD 0 = false ∨ (k.handler f).getLsbD 1 = false) →
    Gives .waiti s fun t => t.me = { k with wait := .waiti } ∧ OnlyMe s t) ∧
  Gives (.hdlset a e) s (fun t =>
    (∀ f, t.me.handler f = if f = e then kept (s.reg a) 0 52 else k.handler f) ∧ t.me.pc = k.pc + 4 ∧
    t.me = { k with handlers := t.me.handlers, queues := t.me.queues, pc := t.me.pc } ∧ OnlyMe s t ∧
    t.me.queue e = (if (s.reg a).getLsbD 0 = true ∧ (s.reg a).getLsbD 1 = true then
      (k.queue e).map fun m => (if m.1 = .parked then .disp else m.1, m.2) else k.queue e) ∧ (∀ f, f ≠ e → t.me.queue f = k.queue f))

/-- R58: TRET, WAITI and HDLSET trap 0xA4 in user mode, with TVAL their word.
R15: a CRW in user mode to a register other than CMOD, and one to COREID in either mode, traps 0xA2 and changes no register. -/
def Obligations.Privilege : Prop :=
  (∀ (s : State) (a : Reg) (e : BitVec 6), CanTrap s → s.me.status.getLsbD 2 = false →
  Gives .tret s (Trapped s 0xA4 0x01000038) ∧ Gives .waiti s (Trapped s 0xA4 0x02000038) ∧
  Gives (.hdlset a e) s (Trapped s 0xA4 (BitVec.ofNat 64 (0x3B + a.val * 2 ^ 12 + e.toNat * 2 ^ 24)))) ∧
  (∀ (s : State) (a : Reg) (n : BitVec 12), CanTrap s →
  n.toNat < 0x12 → (n.toNat = 7 ∨ s.me.status.getLsbD 2 = false ∧ n.toNat ≠ 8) →
  Gives (.crw a n) s (Trapped s 0xA2 (BitVec.ofNat 64 n.toNat)))

/-- R14, R15, R423: CRR reads every control register of the tables, in either mode; a number that no table assigns traps 0xA1 at CRR
and CRW.
R14, R15, R231, R260, R331, R412, R436: what a CRW of supervisor mode writes, each register's own bits; CMOD in either mode. -/
def Obligations.ControlRegisters : Prop :=
  (∀ (s : State) (d a : Reg) (n : BitVec 12),
  (∀ v, (n.toNat, v) ∈ controlRegisters s → Gives (.crr d n) s (Wrote s d v)) ∧
  (0x12 ≤ n.toNat → CanTrap s →
    Gives (.crr d n) s (Trapped s 0xA1 (BitVec.ofNat 64 n.toNat)) ∧ Gives (.crw a n) s (Trapped s 0xA1 (BitVec.ofNat 64 n.toNat)))) ∧
  (∀ (s : State) (a : Reg),
  let v := s.reg a
  let k := { s.me with pc := s.me.pc + 4 }
  let mine : Nat → Core → Prop := fun n l => Gives (.crw a (BitVec.ofNat 12 n)) s fun t => t.me = l ∧ OnlyMe s t
  let shared : Nat → State → Prop := fun n u => Gives (.crw a (BitVec.ofNat 12 n)) s fun t => t.me = k ∧ t = { u with cores := t.cores }
  mine 0x08 { k with cmod := kept v 0 32 } ∧
  (s.me.status.getLsbD 2 = true →
    mine 0x00 { k with status := kept v 0 5 } ∧ mine 0x01 { k with tvec := kept v 2 64 } ∧ mine 0x02 { k with tcause := kept v 0 9 } ∧
    mine 0x03 { k with tval := v } ∧ mine 0x04 { k with epc := kept v 2 64 } ∧ mine 0x05 { k with clockNext := some v } ∧
    mine 0x06 { k with quantum := BitVec.ofNat 64 (max 16 (v.toNat % 2 ^ 32)) } ∧ mine 0x0A { k with asid := v.setWidth 8 } ∧
    mine 0x0C { k with cvtev := v } ∧ mine 0x0E { k with frec := kept v 8 52 } ∧
    mine 0x10 { k with drainb := BitVec.ofNat 16 (max 1 (v.toNat % 2 ^ 16)) } ∧
    mine 0x0B { s.me with wait := .tinv v } ∧
    shared 0x09 { s with astab := kept v 11 52 } ∧
    shared 0x0D { s with bartab := BitVec.ofNat 64 (v.toNat / 2 ^ 24 % 2 ^ 28 * 2 ^ 24 + v.toNat % 2) } ∧
    shared 0x11 { s with ctxtab := kept v 12 52 }))

/-- R16, R231, R260, R266, R436: the effects of writing CLOCK, QUANTUM, ASTAB, TINV and DRAINB, and the end of an invalidation:
no TLB, no micro-TLB and no translation cache of the module holds a matching translation, and the others stay. -/
def Obligations.ControlRegisterEffects : Prop := ∀ (s : State) (v : Word) (c : CoreIx),
  Gives (.clockWrite v) s (fun t => t.me = { s.me with clockNext := some v } ∧ OnlyMe s t) ∧
  Gives (.quantumWrite v) s (fun t => t.me = { s.me with quantum := BitVec.ofNat 64 (max 16 (v.toNat % 2 ^ 32)) } ∧ OnlyMe s t) ∧
  Gives (.astabWrite v) s (fun t => t = { s with astab := kept v 11 52 }) ∧
  Gives (.tinvWrite v) s (fun t => t.me = { s.me with wait := .tinv v } ∧ OnlyMe s t) ∧
  Gives (.drainbWrite v) s (fun t => t.me = { s.me with drainb := BitVec.ofNat 16 (max 1 (v.toNat % 2 ^ 16)) } ∧ OnlyMe s t) ∧
  ((s.core c).wait = .tinv v → Inv s → Gives (.tinvComplete c) s fun t =>
    (∀ d, (t.core d).dtlb = (s.core d).dtlb.filter (fun e => !e.matchesTinv v) ∧
      (t.core d).itlb = (s.core d).itlb.filter (fun e => !e.matchesTinv v)) ∧
    (∀ d, d ≠ c → t.core d = { s.core d with dtlb := (t.core d).dtlb, itlb := (t.core d).itlb }) ∧
    t.core c = { s.core c with pc := (s.core c).pc + 4, wait := .none, dtlb := (t.core c).dtlb, itlb := (t.core c).itlb } ∧
    (∀ p ∈ t.tcs, ∀ e ∈ p.2, e.matchesTinv v = false) ∧ (∀ p ∈ t.micro, ∀ e ∈ p.2, e.matchesTinv v = false) ∧
    t = { s with cores := t.cores, micro := t.micro, tcs := t.tcs })
/-! ### The fabric commands (11) -/

/-! ### The step, the encoding, the invariant -/

/-- R18, R21, R57, R59, R415: the turn of a core that fetches executes the instruction that the word at pc decodes to, in the state
its translation leaves; a word that decodes to none, a pc outside the range, a failed translation and a word that cannot be
delivered execute the traps of R57 and R59; an instruction that consumes a register with an uncorrectable word traps 0xB0, its TVAL
left open (R477, log entry 84); where the core has stored over the word since its last FENCE, the word is the one
stored or one it replaced. A device step is executed as the agenda has it, and an empty agenda plans the next cycle. -/
def Obligations.StepRunsDecoded : Prop := ∀ (s : State) (r : List Turn) (c : CoreIx) (i : Instr),
  (s.agenda = [] → step s = .next s.plan) ∧
  (s.agenda = .event i :: r → step s = exec i { s with agenda := r }) ∧
  (s.agenda = .core c :: r →
    let u : State := { s with agenda := r, cur := c }
    let pc := u.me.pc
    Fetches u.me →
    (2 ^ 52 < pc.toNat + 4 → step s = exec (.fetchFault 0x20 pc) u) ∧
    (∀ b, pc.toNat + 4 ≤ 2 ^ 52 → u.translate pc.toNat .fetch = .fault b → step s = exec (.fetchFault b pc) u) ∧
    (∀ pa v, pc.toNat + 4 ≤ 2 ^ 52 → u.translate pc.toNat .fetch = .ok pa v →
      (∀ b, v.undeliverables (addrs pa 4) = some b → step s = exec (.fetchFault b pc) u) ∧
      (v.undeliverables (addrs pa 4) = none → window pa ≠ .block →
        let runs : BitVec 32 → State → Prop := fun w t =>
          (∀ j, decodeWord w.toNat = .ok j → (∀ r ∈ sourcesOf j, r ∉ t.me.spoiled) → step s = exec j t) ∧
          (∀ j, decodeWord w.toNat = .ok j → (∃ r ∈ sourcesOf j, r ∈ t.me.spoiled) → CanTrap t →
            ∃ b a, step s = .next a ∧ Trapped { t with choices := t.choices + 1 } 0xB0 b a) ∧
          (∀ x, decodeWord w.toNat = .error x → step s = exec (.illegalInstruction w) t)
        (v.me.istale.get [] (v.key pa / 4) = [] → runs (wordAt v pa) v) ∧
        (v.me.istale.get [] (v.key pa / 4) ≠ [] →
          ∃ w ∈ wordAt v pa :: v.me.istale.get [] (v.key pa / 4), runs w { v with choices := v.choices + 1 }))))

/-- R49-R57: these words decode to these instructions, and the instructions encode to the words; words with an ill major opcode, an ill
selector, a k outside its range, a reserved field that is not zero or a CELL code that is no opcode decode to none. -/
def Obligations.DecodedWords : Prop :=
  (∀ p ∈ words, decodeWord p.1 = .ok p.2 ∧ encodeNat p.2 = some p.1) ∧
  ∀ p ∈ ([(0x0000_0000, .major), (0x0000_000D, .major), (0x1300_0001, .selector), (0x0400_0028, .rangeK), (0x0600_0030, .rangeK),
    (0x0700_0031, .rangeK), (0x0004_0002, .reserved), (0x4000_000F, .reserved), (0x0400_0038, .selector), (0x2500_000E, .cellCode)] :
      List (Nat × DecodeError)), decodeWord p.1 = .error p.2

/-- R48-R57: encoding and decoding agree, whatever the operands: a well-formed instruction that has a word decodes from it, and a
word that decodes is the word of a well-formed instruction, the one it decodes to. -/
def Obligations.EncodingRoundTrip : Prop :=
  (∀ i w, WellFormed i → HasWord i w → w < 2 ^ 32 ∧ decodeWord w = .ok i ∧ decodeTableWord 32 w = some i) ∧
  (∀ w i, w < 2 ^ 32 → decodeWord w = .ok i → WellFormed i ∧ HasWord i w)

/-- R14, R23, R260, R331, R436: whatever step the module takes, the invariant holds after it: memory keeps its canonical form, x0
reads as zero, the registers of R14 hold their own bits only, and no core's pc leaves alignment. -/
def Obligations.StepKeepsInvariant : Prop := ∀ s t : State, Inv s → step s = .next t → Inv t

/-- R25, R14, R459: the invariant holds after reset; every core is held with every register zero but STATUS 4, QUANTUM 16 and DRAINB
64, no graph is live, and ASTAB, BARTAB and CTXTAB are zero. The zeros of x1-x63 are the model's choice (log entry 18). -/
def Obligations.ResetState : Prop :=
  Inv State.reset ∧ State.reset.mem = [] ∧ State.reset.astab = 0 ∧ State.reset.bartab = 0 ∧ State.reset.ctxtab = 0 ∧
  (∀ g, (State.reset.graph g).live = false) ∧
  ∀ c, let k := State.reset.core c
    k.run = .held ∧ (∀ r, k.reg r = 0) ∧ k.pc = 0 ∧ k.status = 4 ∧ k.tvec = 0 ∧ k.tcause = 0 ∧ k.tval = 0 ∧ k.epc = 0 ∧ k.clock = 0 ∧
    k.quantum = 16 ∧ k.cmod = 0 ∧ k.asid = 0 ∧ k.cvtev = 0 ∧ k.frec = 0 ∧ k.drainb = 64 ∧ k.spoiled = []

/-- R15, R58, R420: an instruction that user mode executes without a trap, which would set SUP, leaves every control register but CMOD
and CLOCK and the handler table of its core as they were; where it stores nothing, also ASTAB, BARTAB and CTXTAB. -/
def Obligations.UserModeConfined : Prop := ∀ (s t : State) (i : Instr) (w : Nat), HasWord i w → exec i s = .next t →
  s.me.status.getLsbD 2 = false → t.me.status.getLsbD 2 = false →
  t.me = { s.me with run := t.me.run, x := t.me.x, spoiled := t.me.spoiled, pc := t.me.pc, cmod := t.me.cmod, wait := t.me.wait, istale := t.me.istale,
                     dtlb := t.me.dtlb, queues := t.me.queues, barriers := t.me.barriers, pending := t.me.pending,
                     dispatch := t.me.dispatch, atomId := t.me.atomId } ∧
  (storesTo i = false → t.astab = s.astab ∧ t.bartab = s.bartab ∧ t.ctxtab = s.ctxtab)
/-! ### Compute cells (05, 09) -/

/-! ### The fabric commands (11) -/

/-- R237, R242, R243: SIGEMIT sets an emit latch, SIGREAD reads a committed status, ARMSEC latches pages of a running graph; an
instant that waits may begin. ARMSEC on a graph that is not running does nothing; a page that is not of the graph traps
0x8A and arms nothing.
R244: GWAIT waits until the graph has ended, or until no load of it is in progress, and while it is CUT or RESTORING (R451); then it
writes what that end left: 0, or the status word of the cause. It does so too for a graph of a queue whose end has made the handle
stale but whose slot is not yet free.
R241: QPUSH to a queue whose EN and OWN are 1 and that is not full copies the 64 bytes to slot TAIL mod 2^LOG2N, adds 1 to TAIL and
answers the old TAIL; a closed queue answers the status word of 0x88, a full one that of 0x87, and nothing is written. -/
def Obligations.SignalsAndQueues : Prop :=
  (∀ (s : State) (d a b : Reg) (n : BitVec 6) (g : GraphIx),
  let v := s.reg a
  let x := s.graph g
  (s.byHandle v = some g →
    Gives (.sigemit a n) s (fun t =>
      OnlyGraph s g { x with latch := x.latch ||| (1 <<< n.toNat), asleep := false } t ∧ t.me = { s.me with pc := s.me.pc + 4 } ∧
      t = { s with graphs := t.graphs, cores := t.cores }) ∧
    Gives (.sigread d a n) s (Wrote s d (if x.sigs.getLsbD n.toNat then 1 else 0))) ∧
  (s.byHandle (kept v 0 48) = some g →
    (x.st = .idle ∨ x.st = .ended → Gives (.armsec a b) s (WentTo s (s.me.pc + 4))) ∧
    (x.st ≠ .idle → x.st ≠ .ended → (∀ p < 64, (s.reg b).getLsbD p = true → ∃ r ∈ x.pages, r.1 = p) →
      Gives (.armsec a b) s fun t =>
        OnlyGraph s g { x with arms := x.arms ||| s.reg b, asleep := false } t ∧ t.me = { s.me with pc := s.me.pc + 4 } ∧
        t = { s with graphs := t.graphs, cores := t.cores }) ∧
    (x.st ≠ .idle → x.st ≠ .ended → CanTrap s → (∃ p < 64, (s.reg b).getLsbD p = true ∧ ∀ r ∈ x.pages, r.1 ≠ p) →
      Gives (.armsec a b) s (Trapped s 0x8A (s.reg b))))) ∧
  (∀ (s : State) (d a : Reg) (g : GraphIx),
  let v := s.reg a
  let x := s.graph g
  let i := Instr.gwait d a
  let answers : Word → Prop := fun w => Gives i s fun t =>
    RegsWritten s.me d w t.me ∧ t.me = { s.me with x := t.me.x, spoiled := t.me.spoiled, pc := s.me.pc + 4 } ∧ (∀ h, h ≠ g → t.graph h = s.graph h) ∧
    t = { s with cores := t.cores, graphs := t.graphs, dist := t.dist }
  v.getLsbD 63 = false → v.toNat / 2 ^ 16 % 2 ^ 46 = 0 →
  (s.byHandle (kept v 0 16) = some g →
    (x.ctx = .cut ∨ x.ctx = .restoring → Retries i s) ∧
    (x.ctx ≠ .cut → x.ctx ≠ .restoring →
      (v.getLsbD 62 = false → x.st = .ended → ∀ w, x.ended = some w → answers w) ∧
      (v.getLsbD 62 = false → x.st ≠ .ended → Retries i s) ∧
      (v.getLsbD 62 = true → x.loads = [] → ∀ w, x.loaded = some w → answers w) ∧
      (v.getLsbD 62 = true → x.loads ≠ [] → Retries i s))) ∧
  (v.getLsbD 62 = false → g.val = v.toNat % 4096 → v.toNat / 4096 % 16 = x.gen % 16 → x.live = true → x.queue.isSome = true → x.st = .ended →
    ∀ w, x.ended = some w → Gives i s (Wrote s d w))) ∧
  (∀ (s s1 : State) (d a : Reg) (q : BitVec 6) (bs : List Byte),
  let va := BitVec.ofNat 64 ((s.reg a).toNat / 64 * 64)
  let n := q.toNat
  let tail := s.queueTail n
  let slot := s.queueBase n + 64 * (tail % 2 ^ s.queueLog n)
  let there := addrs slot 64 ++ addrs (s.queueAt n + 64) 4
  (s.queueThere n = false ∨ s.queueEn n = false ∨ s.queueOwn n = false → Gives (.qpush d a q) s (Wrote s d 0x8088000000000000)) ∧
  (s.queueThere n = true → s.queueEn n = true → s.queueOwn n = true → (tail + 2 ^ 32 - s.queueHead n) % 2 ^ 32 = 2 ^ s.queueLog n →
    Gives (.qpush d a q) s (Wrote s d 0x8087000000000000)) ∧
  (va.toNat + 64 ≤ 2 ^ 52 → s.queueThere n = true → s.queueEn n = true → s.queueOwn n = true → (tail + 2 ^ 32 - s.queueHead n) % 2 ^ 32 ≠ 2 ^ s.queueLog n →
    ReadsTo s va 64 bs s1 → (there.map s.key).Nodup → (∀ p ∈ there, window p ≠ .none ∧ p < blockBase) →
    s.storeRefused there = none → s.unstorable there = none →
    Gives (.qpush d a q) s fun t =>
      RegsWritten s.me d (BitVec.ofNat 64 tail) t.me ∧ t.me.pc = s.me.pc + 4 ∧
      t.bytesAt (addrs slot 64) = bs ∧ t.bytesAt (addrs (s.queueAt n + 64) 4) = leBytes 4 (tail + 1) ∧
      (∀ k, k ∉ there.map s.key → t.byteAt k = s.byteAt k) ∧ (∀ c, c ≠ s.cur → t.core c = s.core c) ∧
      t.me = { s.me with x := t.me.x, spoiled := t.me.spoiled, pc := t.me.pc, dtlb := t.me.dtlb, istale := t.me.istale } ∧
      t = { s with cores := t.cores, mem := t.mem, repair := { s.repair with marks := t.repair.marks } }))

/-- R237: a register that must hold a valid handle and holds none makes each fabric command trap 0x83 with its value; so
does a KIND of GWAIT above 01 (R244).
R219: a word is a valid handle of a slot exactly where its upper bits are zero, the slot is live, its generation agrees, and its graph is
not one of a queue that has ended. -/
def Obligations.Handles : Prop :=
  (∀ (s : State) (d a b : Reg) (p : BitVec 2) (n : BitVec 6), CanTrap s →
  let v := s.reg a
  (s.byHandle v = none →
    ∀ i ∈ [Instr.cfgdrop a p, .glaunch d a, .sigemit a n, .sigread d a n], Gives i s (Trapped s 0x83 v)) ∧
  (s.byHandle (kept v 0 48) = none → Gives (.armsec a b) s (Trapped s 0x83 v)) ∧
  (Stale s v.toNat ∨ v.getLsbD 62 = true ∧ s.byHandle (kept v 0 16) = none ∨ v.getLsbD 63 = true ∨ v.toNat / 2 ^ 16 % 2 ^ 46 ≠ 0 →
    Gives (.gwait d a) s (Trapped s 0x83 v)) ∧
  ((s.reg a).toNat + 1 ≤ 2 ^ 52 → s.reg b ≠ 0 → s.byHandle (s.reg b) = none → Gives (.cfgload d a b p) s (Trapped s 0x83 (s.reg b))) ∧
  (2 ^ 52 < (s.reg a).toNat + 1 → Gives (.cfgload d a b p) s (Trapped s 0x20 (s.reg a)))) ∧
  (∀ (s : State) (v : Word) (g : GraphIx),
  s.byHandle v = some g ↔ v.toNat < 2 ^ 16 ∧ g.val = v.toNat % 4096 ∧ (s.graph g).live = true ∧ v.toNat / 4096 = (s.graph g).gen % 16 ∧
    ¬((s.graph g).queue.isSome = true ∧ (s.graph g).st = .ended))

/-- R240: GLAUNCH of a graph all of whose start planes are loaded starts its first instant: emit latches cleared, statuses absent, the delay
registers at DINIT. Where nothing keeps it from its regions (R86, R230), each start plane is ACTIVE; else it waits for them and no
plane changes.
R240: GLAUNCH changes nothing and answers the status word of 0x86 with 4 for a graph that is CUT or RESTORING, 3 for a running
one, else with the state of the first start plane that is not loaded. -/
def Obligations.GraphLaunch : Prop :=
  (∀ (s : State) (d a : Reg) (g : GraphIx),
  let x := s.graph g
  s.byHandle (s.reg a) = some g → x.ctx = .running → (x.st = .idle ∨ x.st = .ended) → x.pages ≠ [] →
  (x.pages.map (·.2)).Nodup →
  let begun : State → Prop := fun t =>
    RegsWritten s.me d 0 t.me ∧ t.me = { s.me with x := t.me.x, spoiled := t.me.spoiled, pc := s.me.pc + 4 } ∧ t.mem = s.mem ∧
    (t.graph g).st = .run ∧ (t.graph g).latch = 0 ∧ (t.graph g).sigs = 0 ∧ (t.graph g).ended = none ∧
    (∀ n, (t.graph g).dreg.get 0 n = (s.graph g).dinit.getD n 0) ∧ ∀ h, h ≠ g → t.graph h = s.graph h
  (∀ p ∈ x.pages, ∃ pl : Fin 4, x.startOf p.1 = pl.val ∧ ((s.region p.2.1 p.2.2).plane pl.val).owner = some g ∧
    (((s.region p.2.1 p.2.2).plane pl.val).st = .shadow ∨ ((s.region p.2.1 p.2.2).plane pl.val).st = .active)) →
  (Unkept s g → Gives (.glaunch d a) s fun t => begun t ∧ (t.graph g).frozen = false ∧
    ∀ p ∈ x.pages, PlaneIs t p.2.1 p.2.2 (x.startOf p.1) .active (some g)) ∧
  (¬Unkept s g → Gives (.glaunch d a) s fun t => begun t ∧ (t.graph g).frozen = true ∧ t.regions = s.regions)) ∧
  (∀ (s : State) (d a : Reg) (g : GraphIx),
  let x := s.graph g
  let status : Nat → Prop := fun v => Gives (.glaunch d a) s (Wrote s d (BitVec.ofNat 64 (0x8086 * 2 ^ 48 + v)))
  s.byHandle (s.reg a) = some g →
  (x.ctx = .cut ∨ x.ctx = .restoring → status 4) ∧
  (x.ctx ≠ .cut → x.ctx ≠ .restoring → x.st ≠ .idle → x.st ≠ .ended → status 3) ∧
  (x.ctx ≠ .cut → x.ctx ≠ .restoring → (x.st = .idle ∨ x.st = .ended) → x.pages = [] → status 0) ∧
  (x.ctx ≠ .cut → x.ctx ≠ .restoring → (x.st = .idle ∨ x.st = .ended) → ∀ l p r, x.pages = l ++ p :: r →
    (∀ q ∈ l, PlaneIs s q.2.1 q.2.2 (x.startOf q.1) .shadow (some g) ∨ PlaneIs s q.2.1 q.2.2 (x.startOf q.1) .active (some g)) →
    (PlaneIs s p.2.1 p.2.2 (x.startOf p.1) .loading (some g) → status 1) ∧
    (PlaneIs s p.2.1 p.2.2 (x.startOf p.1) .incomplete (some g) → status 2) ∧
    (PlaneIs s p.2.1 p.2.2 (x.startOf p.1) .empty none → status 0)))

/-- R238: CFGLOAD of a new graph takes the longest-free slot and the first placement on the core's die that can bind the generators of its
image (R227, R229); the planes of its pages go to LOADING and the handle is written. With no such placement it answers the status
word of 0x84. Where the image's PAGES is 0 or above 64, the graph has no pages and its load is to fail. -/
def Obligations.ImageLoad : Prop := ∀ (s s1 s2 : State) (d a b : Reg) (p : BitVec 2) (n : Byte) (pre : List Byte),
  let base := s.reg a
  let places := candidates (fun r => (s.freePlane (some p.toNat) r).isSome) n.toNat [s.cur] [s.cur.val / 64]
  let loaded : GraphIx → List Byte → List (Nat × CoreIx × Fin 16) → Prop := fun g pre pages => Gives (.cfgload d a b p) s fun t =>
    RegsWritten s.me d (t.handle g) t.me ∧ t.me = { s.me with x := t.me.x, spoiled := t.me.spoiled, pc := s.me.pc + 4, dtlb := t.me.dtlb } ∧
    t.mem = s.mem ∧ (t.graph g).live = true ∧ (t.graph g).st = .idle ∧ (t.graph g).gen = (s.graph g).gen ∧
    (t.graph g).asid = s.me.asid ∧ (t.graph g).loads = [⟨p.toNat, base.toNat, s.me.asid, .graph, pre, n.toNat, []⟩] ∧
    (t.graph g).pages = pages ∧ (∀ q ∈ pages, PlaneIs t q.2.1 q.2.2 p.toNat .loading (some g)) ∧ ∀ h, h ≠ g → t.graph h = s.graph h
  base.toNat + 1 ≤ 2 ^ 52 → s.reg b = 0 → ReadsTo s (base + 5) 1 [n] s1 →
  (1 ≤ n.toNat → n.toNat ≤ 64 → ReadsTo s1 (base + 256) (8 * n.toNat) pre s2 →
    let pages := Load.pages ⟨p.toNat, base.toNat, s.me.asid, .graph, pre, n.toNat, []⟩
    (∀ g l u r, s.freeSlot (s.cur.val / 64) = some g → places = u ++ l :: r → (∀ k ∈ u, ¬Binds s base.toNat p.toNat pages k) →
      Binds s base.toNat p.toNat pages l → loaded g pre ((pages.zip l).map fun q => (q.1, q.2.1, q.2.2))) ∧
    (s.freeSlot (s.cur.val / 64) = none ∨ (∀ k ∈ places, ¬Binds s base.toNat p.toNat pages k) →
      Gives (.cfgload d a b p) s (Loaded s d 0x8084000000000000))) ∧
  (n.toNat = 0 ∨ 64 < n.toNat → ∀ g, s.freeSlot (s.cur.val / 64) = some g → loaded g [] [])

/-- R238: CFGLOAD into a resident graph sets the planes of its pages to LOADING and answers the handle; a plane that is ACTIVE,
LOADING or another graph's traps 0x85 with the region, and no plane changes; so does a graph that is CUT or RESTORING, whose TVAL is
left open (R451).
R239: CFGDROP clears plane p of every region in which the graph owns it; where one of them is ACTIVE or LOADING, it traps 0x85 and no
plane changes; so does a graph that is CUT or RESTORING, whose TVAL is left open (R451). -/
def Obligations.PlaneLoads : Prop :=
  (∀ (s s1 s2 : State) (d a b : Reg) (p : BitVec 2) (n : Byte) (pre : List Byte) (g : GraphIx),
  let base := s.reg a
  let x := s.graph g
  let load : Load := ⟨p.toNat, base.toNat, s.me.asid, .pages, pre, n.toNat, []⟩
  let here : Nat → CoreIx → Fin 16 → Prop := fun page c r => page ∈ load.pages ∧ x.place page = some (c, r)
  base.toNat + 1 ≤ 2 ^ 52 → s.reg b ≠ 0 → s.byHandle (s.reg b) = some g →
  (x.ctx = .cut ∨ x.ctx = .restoring → CanTrap s → ∃ v, Gives (.cfgload d a b p) s (Trapped { s with choices := s.choices + 1 } 0x85 v)) ∧
  (x.ctx ≠ .cut → x.ctx ≠ .restoring → 1 ≤ n.toNat → n.toNat ≤ 64 →
  ReadsTo s (base + 5) 1 [n] s1 → ReadsTo s1 (base + 256) (8 * n.toNat) pre s2 →
  ((∀ page c r, here page c r →
      PlaneIs s c r p.toNat .empty none ∨ PlaneIs s c r p.toNat .shadow (some g) ∨ PlaneIs s c r p.toNat .incomplete (some g)) →
    Gives (.cfgload d a b p) s fun t =>
      RegsWritten s.me d (s.handle g) t.me ∧ t.me = { s.me with x := t.me.x, spoiled := t.me.spoiled, pc := s.me.pc + 4, dtlb := t.me.dtlb } ∧
      t.mem = s.mem ∧ load ∈ (t.graph g).loads ∧
      (∀ page c r, here page c r → PlaneIs t c r p.toNat .loading (some g)) ∧ ∀ h, h ≠ g → t.graph h = s.graph h) ∧
  ((∃ page c r, here page c r ∧ ((((s.region c r).plane p.toNat).st = .active ∨ ((s.region c r).plane p.toNat).st = .loading) ∨
      (((s.region c r).plane p.toNat).owner.isSome = true ∧ ((s.region c r).plane p.toNat).owner ≠ some g))) → CanTrap s →
    ∃ page c r, here page c r ∧ Gives (.cfgload d a b p) s fun t =>
      t.me.tcause = 0x85 ∧ t.me.tval = BitVec.ofNat 64 (c.val * 16 + r.val) ∧ t.me.epc = s.me.pc ∧ t.me.pc = low52 s.me.tvec ∧
      t.me.x = s.me.x ∧ t.regions = s.regions ∧ t.graphs = s.graphs ∧ t.mem = s.mem))) ∧
  (∀ (s : State) (a : Reg) (p : BitVec 2) (g : GraphIx),
  let x := s.graph g
  let owns : CoreIx → Fin 16 → Prop := fun c r => (∃ q ∈ x.spots, q.2 = (c, r)) ∧ ((s.region c r).plane p.toNat).owner = some g
  let busy : CoreIx → Fin 16 → Prop := fun c r =>
    ((s.region c r).plane p.toNat).st = .active ∨ ((s.region c r).plane p.toNat).st = .loading
  s.byHandle (s.reg a) = some g →
  (x.ctx = .cut ∨ x.ctx = .restoring → CanTrap s → ∃ v, Gives (.cfgdrop a p) s (Trapped { s with choices := s.choices + 1 } 0x85 v)) ∧
  (x.ctx ≠ .cut → x.ctx ≠ .restoring →
  ((∀ c r, owns c r → ¬busy c r) → Gives (.cfgdrop a p) s fun t =>
    t.me = { s.me with pc := s.me.pc + 4 } ∧ t.mem = s.mem ∧ (∀ c r, owns c r → PlaneIs t c r p.toNat .empty none) ∧
    (∀ c r q, q ≠ p.toNat → (t.region c r).plane q = (s.region c r).plane q) ∧ ∀ h, h ≠ g → t.graph h = s.graph h) ∧
  ((∃ c r, owns c r ∧ busy c r) → CanTrap s →
    ∃ c r, owns c r ∧ busy c r ∧ Gives (.cfgdrop a p) s (Trapped s 0x85 (BitVec.ofNat 64 (c.val * 16 + r.val))))))

/-- R416: END of a held graph ends it with the status word of its cause; RESUME after 0x80 or 0x81 resolves the instant again and after
a precise fault runs the graph again, or, where the image of a block had failed, lets the block be scheduled again; RESUME after 0x30 or a refusal at the drain, and every action on a graph that is not held, changes
nothing.
R116, R416: after 0x66, DROP discards every stray token of the graph and NEXT the one that the record names; then COMMIT is tried,
as it is for RESUME. A graph held after any other cause allows neither.
R416: a CRW to GCTL does the action on the graph of its handle and goes on; a stale handle traps 0x83, and an action that is none of the
graph's 0x8B, both with the value written. -/
def Obligations.HeldGraphs : Prop :=
  (∀ (s : State) (g : GraphIx) (h : Held),
  let x := s.graph g
  (x.st = .held → x.held = some h →
    Gives (.gctlEnd g) s (fun t => (t.graph g).st = .ended ∧ (t.graph g).held = none ∧
      (t.graph g).ended = some (BitVec.ofNat 64 (2 ^ 63 + h.cause.toNat * 2 ^ 48 + h.tval.toNat % 2 ^ 48)) ∧ t.mem = s.mem ∧ t.cores = s.cores ∧
      ∀ k, k ≠ g → t.graph k = s.graph k) ∧
    (h.cause = 0x80 ∨ h.cause = 0x81 → Gives (.gctlResume g) s fun t =>
      OnlyGraph s g { x with st := .resolve, held := none } t ∧ t = { s with graphs := t.graphs }) ∧
    (h.cause ≠ 0x80 → h.cause ≠ 0x81 → h.cause ≠ 0x66 → h.cause ≠ 0x30 → h.imp = false → (∀ b ∈ x.blocks, b.2.bad = false) →
      Gives (.gctlResume g) s fun t => (t.graph g).st = .run ∧ (t.graph g).held = none ∧ (t.graph g).dreg = x.dreg ∧
        (t.graph g).sigs = x.sigs ∧ (t.graph g).pocket = x.pocket ∧ t = { s with graphs := t.graphs, sites := t.sites } ∧
        ∀ k, k ≠ g → t.graph k = s.graph k) ∧
    (h.cause ≠ 0x80 → h.cause ≠ 0x81 → h.cause ≠ 0x66 → (∃ b ∈ x.blocks, b.2.bad = true) → Gives (.gctlResume g) s fun t =>
      OnlyGraph s g { x with st := .run, held := none, clean := 0, bare := 0, blocks := (t.graph g).blocks } t ∧
      (∀ b ∈ (t.graph g).blocks, b.2.bad = false ∧ ∃ a ∈ x.blocks, a.1 = b.1 ∧ a.2.head = b.2.head ∧ a.2.tail = b.2.tail) ∧
      t = { s with graphs := t.graphs }) ∧
    (h.cause ≠ 0x80 → h.cause ≠ 0x81 → h.cause ≠ 0x66 → (h.cause = 0x30 ∨ h.imp = true) → (∀ b ∈ x.blocks, b.2.bad = false) →
      exec (.gctlResume g) s = .next s)) ∧
  (x.st ≠ .held → ∀ i ∈ [Instr.gctlResume g, .gctlEnd g, .gctlDrop g, .gctlNext g], exec i s = .next s)) ∧
  (∀ (s : State) (g : GraphIx) (h : Held),
  let x := s.graph g
  let again : State → State := fun u => (u.updGraph g fun y => { y with st := .commit, held := none }).commit g
  x.st = .held → x.held = some h →
  (h.cause = 0x66 →
    (∃ u, u.strays g = [] ∧ exec (.gctlDrop g) s = .next (again u) ∧ u = { s with sites := u.sites }) ∧
    (∀ l t r, s.strays g = l ++ t :: r → (∀ u ∈ l, u.code ≠ h.stray) → t.code = h.stray →
      exec (.gctlNext g) s = .next (again (s.dropToken t))) ∧
    ((∀ t ∈ s.strays g, t.code ≠ h.stray) → exec (.gctlNext g) s = .next (again s)) ∧
    exec (.gctlResume g) s = .next (again s)) ∧
  (h.cause ≠ 0x66 → exec (.gctlDrop g) s = .next s ∧ exec (.gctlNext g) s = .next s)) ∧
  (∀ (s : State) (a : Reg) (g : GraphIx),
  let v := s.reg a
  let action := v.toNat / 2 ^ 16 % 16
  s.me.status.getLsbD 2 = true →
  (s.byHandle (kept v 0 16) = none → CanTrap s → Gives (.crw a 0x00F) s (Trapped s 0x83 v)) ∧
  (s.byHandle (kept v 0 16) = some g →
    ((s.graph g).st ≠ .held ∨ 4 ≤ action → CanTrap s → Gives (.crw a 0x00F) s (Trapped s 0x8B v)) ∧
    (∀ i n, (n, i) ∈ [(0, Instr.gctlResume g), (1, .gctlEnd g), (2, .gctlDrop g), (3, .gctlNext g)] → action = n →
      (s.gctl g action).isSome = true → ∃ t, exec i s = .next t ∧ exec (.crw a 0x00F) s = .next t.skip)))

/-! ### Compute cells (08, 09) -/

/-- R91, R95, R171, R174-R180, R185: a lane-wise opcode that finds values at all its ports and its output free consumes them and emits
one value: its mask is the AND of the operands' masks, its F the OR of the ports', each valid lane the opcode's result.
R158, R159, R181: LBCAST, LPERM, LRED, LSCAN and LSHIFT. -/
def Obligations.LaneOperations : Prop :=
  (∀ (s : State) (g : GraphIx) (e : Elt) (f : FrameBits) (mk : Elt → Instr) (op : Nat)
    (reads : List Nat) (fn : BitVec 24 → Lane → Lane → Lane → Lane), (mk, op, reads, fn) ∈ laneCells →
  let ports := portsOf f reads
  let k := operand s g e f
  CellAt s g e f op → Values s e ports → Free s g e 0 →
  Gives (mk e) s fun t => Fired s g e t ∧ Consumed s t e ports ∧ ∃ r, Emits t e 0 r ∧
    IsValue r (reads.foldl (fun m i => m &&& (k i).mask) 0xFFFF) (fillAt s e ports)
      (fun i => fn (modOf f) ((k 0).lane i) ((k 1).lane i) ((k 2).lane i))) ∧
  (∀ (s : State) (g : GraphIx) (e : Elt) (f : FrameBits),
  let k := operand s g e f
  let a := k 0
  let m := modOf f
  let go : (Elt → Instr) → Nat → List Nat → (Token → Prop) → Prop := fun mk op reads P =>
    CellAt s g e f op → Values s e (portsOf f reads) → Free s g e 0 →
    Gives (mk e) s fun t => Fired s g e t ∧ Consumed s t e (portsOf f reads) ∧ ∃ r, Emits t e 0 r ∧ r.kind = 0 ∧ r.err = false ∧
      r.fill = fillAt s e (portsOf f reads) ∧ P r
  go .lbcast 0x20 [0] (fun r => ∀ i < 16, r.valid i = a.valid (m.toNat % 16) ∧ (r.valid i = true → r.lane i = a.lane (m.toNat % 16))) ∧
  go .lperm 0x21 [0, 1] (fun r => ∀ i < 16, let j := ((k 1).lane i).toNat % 16
    r.valid i = ((k 1).valid i && a.valid j) ∧ (r.valid i = true → r.lane i = a.lane j)) ∧
  go .lred 0x22 [0] (fun r => (∀ i, 1 ≤ i → r.valid i = false) ∧ (r.valid 0 = true ↔ ∃ i < 16, a.valid i = true) ∧
    (∀ i < 16, (∀ j < 16, a.valid j = true ↔ j = i) → r.lane 0 = canon (a.lane i))) ∧
  go .lscan 0x23 [0] (fun r => r.mask = a.mask ∧ ∀ i < 16, a.valid i = true →
    ((∀ j < i, a.valid j = false) → r.lane i = canon (a.lane i)) ∧
    (∀ j < i, a.valid j = true → (∀ n < i, j < n → a.valid n = false) →
      r.lane i = redOp (m.toNat % 4) (modRnd m) (r.lane j) (a.lane i))) ∧
  go .lshift 0x24 [0] (fun r => ∀ i : Nat, i < 16 → ∀ j : Nat, j < 16 →
    let d : Int := (i : Int) - (BitVec.ofNat 5 m.toNat).toInt
    (m.getLsbD 5 = false → ((j : Int) = d → r.valid i = a.valid j ∧ (r.valid i = true → r.lane i = a.lane j)) ∧ (d < 0 ∨ 16 ≤ d → r.valid i = false)) ∧
    (m.getLsbD 5 = true → (j : Int) = d % 16 → r.valid i = a.valid j ∧ (r.valid i = true → r.lane i = a.lane j))))

/-- R172, R182, R183, R184, R186, R187: the opcodes with state. ACCUM, COUNT, TOPK, ARGMAX and ICDF take a value and emit nothing; RUNMAX, CUMSUM, CONST and
DELAY emit a value for each; GEN emits A plus its count times STEP until it has emitted B values, then the stop of its level. -/
def Obligations.StreamCells : Prop := ∀ (s : State) (g : GraphIx) (e : Elt) (f : FrameBits),
  let k := operand s g e f
  let a := k 0
  let m := modOf f
  let c := (s.site e).cell
  let ready : Nat → List Nat → Prop := fun op reads => CellAt s g e f op ∧ Values s e (portsOf f reads) ∧ Free s g e 0
  let silent : (Elt → Instr) → Nat → List Nat → (Cell → Prop) → Prop := fun mk op reads P => ready op reads →
    Gives (mk e) s fun t => Fired s g e t ∧ Consumed s t e (portsOf f reads) ∧ (t.site e).outs = (s.site e).outs ∧ P (t.site e).cell
  let emits : (Elt → Instr) → Nat → List Nat → BitVec 16 → (Cell → Nat → Lane) → Prop := fun mk op reads mask lane => ready op reads →
    Gives (mk e) s fun t => Fired s g e t ∧ Consumed s t e (portsOf f reads) ∧
      ∃ r, Emits t e 0 r ∧ IsValue r mask (fillAt s e (portsOf f reads)) (lane (t.site e).cell)
  silent .accum 0x28 [0] (fun d => d.mask = c.mask ||| a.mask ∧ d.seen = true ∧ ∀ i < 16,
    d.acc.getD i 0 = if a.valid i then fadd (c.acc.getD i 0) (a.lane i) (modRnd m) else c.acc.getD i 0) ∧
  silent .count 0x2A [0] (fun d => ∀ i < 16, d.cnt.getD i 0 = if a.valid i then c.cnt.getD i 0 + 1 else c.cnt.getD i 0) ∧
  silent .topk 0x33 [0] (fun d => d.n = c.n + 1 ∧ ∀ i < 16,
    d.ranks.getD i [] = if a.valid i then (rankInsert (a.lane i) c.n (c.ranks.getD i [])).take (topK m) else c.ranks.getD i []) ∧
  silent .argmax 0x34 [0] (fun d => d.n = c.n + 1 ∧ ∀ i < 16,
    d.ranks.getD i [] = if a.valid i then (rankInsert (a.lane i) c.n (c.ranks.getD i [])).take 1 else c.ranks.getD i []) ∧
  (c.seen = false → silent .icdf 0x32 [0, 1] (fun d => d.n = c.n + 1 ∧ d.seen = true ∧ ∀ i < 16,
    (c.found.getD i none = none → a.valid i = true → (readW40 ((c.thr.getD (k 1)).lane i)).lt (readW40 (a.lane i)) = true →
      d.found.getD i none = some c.n) ∧
    (c.found.getD i none ≠ none → d.found.getD i none = c.found.getD i none))) ∧
  emits .runmax 0x29 [0] a.mask (fun _ i => fmax (c.acc.getD i (wInf true)) (a.lane i)) ∧
  emits .cumsum 0x31 [0] a.mask (fun _ i => fadd (c.acc.getD i 0) (a.lane i) (modRnd m)) ∧
  emits .const 0x2C [0, 1] a.mask (fun _ i => (k 1).lane i) ∧
  (c.line.length < delayN m → emits .delay 0x2D [0, 1] a.mask (fun _ i => (k 1).lane i)) ∧
  (ready 0x2B [0, 1] →
    ((c.n : Int) < (((k 1).lane 0).setWidth 32).toInt → Gives (.gen e) s fun t => Fired s g e t ∧ Consumed s t e [] ∧
      (t.site e).cell.n = c.n + 1 ∧ ∃ r, Emits t e 0 r ∧
        IsValue r a.mask (fillAt s e (portsOf f [0, 1])) (fun i => intLaneOf m (((a.lane i).setWidth 32).toInt + c.n * (BitVec.ofNat 13 (m.toNat / 8)).toInt))) ∧
    ((((k 1).lane 0).setWidth 32).toInt ≤ (c.n : Int) → Gives (.gen e) s fun t => Fired s g e t ∧ Consumed s t e (portsOf f [0, 1]) ∧
      (t.site e).cell.n = 0 ∧ Emits t e 0 (stopTok (min (m.toNat % 8) 5))))

/-- R91, R98, R99, R171: a stop or D at all its ports passes a cell that owes no result: it is consumed everywhere and emitted with
all other fields zero; from RLVL up, and at D, it resets the cell.
R172, R182, R186, R187: at a closing stop, an accumulating opcode emits its results first, one a firing, and consumes nothing; then the
stop passes and the cell is reset. -/
def Obligations.StopsInCells : Prop :=
  (∀ (s : State) (g : GraphIx) (e : Elt) (f : FrameBits) (mk : Elt → Instr) (op : Nat)
    (reads : List Nat) (k : Fin 8), (mk, op, reads) ∈ plainCells →
  CellAt s g e f op → Stops s e (portsOf f reads) k → Free s g e 0 →
  Gives (mk e) s fun t => Fired s g e t ∧ Consumed s t e (portsOf f reads) ∧
    Emits t e 0 ⟨k, false, false, 0, List.replicate 16 0⟩ ∧
    (k = 7 ∨ rlvlOf f + 1 ≤ k.val → (t.site e).cell = .reset) ∧
    (k ≠ 7 → k.val < rlvlOf f + 1 → (t.site e).cell = (s.site e).cell)) ∧
  (∀ (s : State) (g : GraphIx) (e : Elt) (f : FrameBits) (mk : Elt → Instr) (op : Nat)
    (reads : List Nat) (k : Fin 8),
  (mk, op, reads) ∈ ([(.accum, 0x28, [0]), (.count, 0x2A, [0]), (.topk, 0x33, [0]), (.argmax, 0x34, [0]), (.icdf, 0x32, [0, 1])] : List ((Elt → Instr) × Nat × List Nat)) →
  let x := (s.site e).cell
  let m := modOf f
  let n := if op = 0x33 then topK m else 1
  CellAt s g e f op → Stops s e (portsOf f reads) k → Free s g e 0 → k ≠ 7 → rlvlOf f + 1 ≤ k.val →
  (x.out < n → Gives (mk e) s fun t => Fired s g e t ∧ Consumed s t e [] ∧ (t.site e).cell = { x with out := x.out + 1 } ∧
    ∃ r, Emits t e 0 r ∧ r.kind = 0 ∧ r.err = false ∧ r.fill = x.fill ∧
      (op = 0x28 → r.mask = x.mask ∧ ∀ i < 16, r.valid i = true → r.lane i = x.acc.getD i 0) ∧
      (op = 0x2A → r.mask = 0xFFFF ∧ ∀ i < 16, r.lane i = intLaneOf m (x.cnt.getD i 0)) ∧
      (op = 0x33 ∨ op = 0x34 → ∀ i < 16, (r.valid i = true ↔ x.out < (x.ranks.getD i []).length)) ∧
      (op = 0x32 → ∀ i < 16, r.valid i = true → r.lane i =
        (BitVec.ofInt 32 (match x.found.getD i none, x.last.getD i none with
          | some n, _ => (n : Int) | none, some n => (n : Int) | none, none => -1)).signExtend 40)) ∧
  (n ≤ x.out → Gives (mk e) s fun t => Fired s g e t ∧ Consumed s t e (portsOf f reads) ∧ (t.site e).cell = .reset ∧
    Emits t e 0 ⟨k, false, false, 0, List.replicate 16 0⟩))

/-- R100-R102: an error token at a port a cell reads goes through unchanged, the first in port order, and the element drains; heads of
different kinds make it emit the error token 0x01, lane 0 naming the kinds and the ports, lane 1 the element's place.
R102, R206: an element that drains takes at most one token from each port, up to its D, whatever the tokens are; when every port has given its D, one D goes to each
output that still owes it; with the last of them the element is reset. -/
def Obligations.ErrorTokensAndDrains : Prop :=
  (∀ (s : State) (g : GraphIx) (e : Elt) (f : FrameBits) (mk : Elt → Instr) (op : Nat)
    (reads : List Nat), (mk, op, reads) ∈ plainCells ++ keepers →
  let ports := portsOf f reads
  CellAt s g e f op → Free s g e 0 →
  (∀ p k, p ∈ ports → (s.site e).head p = some k → k.err = true →
    (∀ q ∈ ports, q < p → ∀ h, (s.site e).head q = some h → h.err = false) →
    Gives (mk e) s fun t => Fired s g e t ∧ Consumed s t e [p] ∧ Emits t e 0 k ∧ (t.site e).elem.drain = some [] ∧
      (t.site e).elem.dOut = [0]) ∧
  (∀ a b, ports = [0, 1] → (s.site e).head 0 = some a → (s.site e).head 1 = some b → a.err = false → b.err = false → a.kind ≠ b.kind →
    Gives (mk e) s fun t => Fired s g e t ∧ Consumed s t e [] ∧ (t.site e).elem.drain = some [] ∧ ∃ r, Emits t e 0 r ∧
      r.kind = 0 ∧ r.err = true ∧ r.fill = false ∧ r.mask = 3 ∧
      (r.lane 0).toNat = 1 + 256 * (a.kind.val + 8 * b.kind.val + 512 * 3) ∧ r.lane 1 = BitVec.ofNat 40 (s.locOf e))) ∧
  (∀ (s : State) (g : GraphIx) (e : Elt) (f : FrameBits) (mk : Elt → Instr) (op : Nat) (ports : List Nat) (r : Bool) (got : List Nat),
  (mk, op, ports, r) ∈ drainers f →
  let x := s.site e
  let now := ports.filter fun p => !got.contains p && (x.head p).isSome
  let done := got ++ now.filter fun p => (x.head p).any fun k => k.kind = 7
  let all := ports.all done.contains
  MayFire s g e r → (if r then x.switch else x.comp) = some f → opcOf f = op → (x.half r).drain = some got →
  (now ≠ [] → all = false → Gives (mk e) s fun t => Does s g e now [] t ∧ ((t.site e).half r).drain = some done ∧ ((t.site e).half r).dOut = (x.half r).dOut) ∧
  (all = true → (∀ o ∈ (x.half r).dOut, Free s g e o) → (x.half r).dOut.Nodup →
    Gives (mk e) s fun t => Does s g e now ((x.half r).dOut.map fun o => (o, ⟨7, false, false, 0, List.replicate 16 0⟩)) t ∧
      ((t.site e).half r).drain = none ∧ (if r then (t.site e).router = .reset else if op < 0x50 then (t.site e).cell = .reset else (t.site e).fibre = .reset)))

/-- R161, R188, R189, R190, R191: the signed-digit cells. A header opens a group: SDADD and SDMUL emit the header of the sum's or the product's scales,
SDCUT passes it, SDCMP and SDTOW keep it; SDCUT passes planes, and discards them once it has cut; SDTOW and SDCMP answer at the stop, or
emit the error token 0x04 where a digit is malformed. -/
def Obligations.SignedDigitCells : Prop := ∀ (s : State) (g : GraphIx) (e : Elt) (f : FrameBits),
  let k := operand s g e f
  let x := (s.site e).cell
  let scale : Token → Nat → Nat := fun h i => (h.lane i).toNat % 256
  let ready : Nat → List Nat → Prop := fun op reads =>
    CellAt s g e f op ∧ Values s e (portsOf f reads) ∧ Free s g e 0 ∧ x.dig.stop = none ∧ (s.site e).elem.skip = false
  let header : (Elt → Instr) → Nat → (Nat → Nat → Nat) → Prop := fun mk op fn => ready op [0, 1] → x.dig.hdrA = none →
    Gives (mk e) s fun t => Fired s g e t ∧ Consumed s t e (portsOf f [0, 1]) ∧ (t.site e).cell.dig.hdrA = some (k 0) ∧
      (t.site e).cell.dig.hdrB = some (k 1) ∧ ∃ r, Emits t e 0 r ∧
        IsValue r ((k 0).mask &&& (k 1).mask) (x.fill || fillAt s e (portsOf f [0, 1])) (fun i => BitVec.ofNat 40 (fn (scale (k 0) i) (scale (k 1) i)))
  header .sdadd 0x38 (fun a b => if a = 255 ∨ b = 255 then 255 else min (max a b + 2) 255) ∧
  header .sdmul 0x39 (fun a b => if a = 255 ∨ b = 255 then 255 else if a + b < 125 then 0 else min (a + b - 125) 255) ∧
  (∀ mk op reads, (mk, op, reads) ∈ ([(.sdcmp, 0x3A, [0, 1]), (.sdtow, 0x3C, [0])] : List ((Elt → Instr) × Nat × List Nat)) →
    (ready op reads → x.dig.hdrA = none →
      Gives (mk e) s fun t => Fired s g e t ∧ Consumed s t e (portsOf f reads) ∧ (t.site e).outs = (s.site e).outs ∧
        (t.site e).cell.dig.hdrA = some (k 0)) ∧
    (∀ ha hb n, CellAt s g e f op → Free s g e 0 → x.dig.hdrA = some ha → x.dig.hdrB = some hb → x.out = 0 → Stops s e (portsOf f reads) n →
      (sdFirstBad (if op = 0x3A then [x.dig.plA, x.dig.plB] else [x.dig.plA]) = none →
        Gives (mk e) s fun t => Fired s g e t ∧ Consumed s t e [] ∧ ∃ r, Emits t e 0 r ∧ r.kind = 0 ∧ r.err = false ∧ r.fill = x.fill ∧
          ∀ i < 16, r.valid i = true →
            (op = 0x3C → r.lane i = if scale ha i = 255 then wNan
              else (Dy.mk (sdPrefix x.dig.plA x.dig.plA.length i).k ((sdPrefix x.dig.plA x.dig.plA.length i).e + (scale ha i : Int) - 127)).round .rne false)) ∧
      (∀ j i, sdFirstBad (if op = 0x3A then [x.dig.plA, x.dig.plB] else [x.dig.plA]) = some (j, i) →
        Gives (mk e) s fun t => Fired s g e t ∧ (t.site e).elem.drain = some [] ∧ ∃ r, Emits t e 0 r ∧ r.err = true ∧
          r.lane 0 = BitVec.ofNat 40 (4 + 256 * (j + 16 * i))))) ∧
  (ready 0x3B [0] →
    (x.dig.hdrA = none → Gives (.sdcut e) s fun t => Fired s g e t ∧ Consumed s t e (portsOf f [0]) ∧ Emits t e 0 (k 0) ∧
      (t.site e).cell.dig.hdrA = some (k 0)) ∧
    (∀ hd, x.dig.hdrA = some hd → x.dig.cut = false → sdDecides (modOf f) hd (x.dig.plA ++ [k 0]) = false →
      Gives (.sdcut e) s fun t => Fired s g e t ∧ Consumed s t e (portsOf f [0]) ∧ Emits t e 0 (k 0) ∧
        (t.site e).cell.dig.plA = x.dig.plA ++ [k 0]) ∧
    (∀ hd, x.dig.hdrA = some hd → x.dig.cut = true →
      Gives (.sdcut e) s fun t => Fired s g e t ∧ Consumed s t e (portsOf f [0]) ∧ (t.site e).outs = (s.site e).outs))

/-! ### Fibre cells, routers, tiles, matrix nodes (10, 16, 18) -/

/-- R210-R212: the scans. FSCANC and FSCAND emit a coordinate and its ordinal until their range is used up, then a stop; FSCANB emits each set
bit of its mask, or of two masks combined, with its ordinal and the positions in the operands' fibres; FSCANT does so leaf by leaf. A
range that runs backward is malformed.
R214-R216: FREPEAT emits A as often as B says and then a stop; FREDUCE folds values by its operation, emits the result at S0 and ends higher
stops one level lower; FDROP passes what is not empty. -/
def Obligations.FibreScans : Prop :=
  (∀ (s : State) (g : GraphIx) (e : Elt) (f : FrameBits) (a b : Token),
  let q := (s.site e).fibre
  let go : (Elt → Instr) → List Nat → List (Nat × Token) → Fibre → Prop := fun mk ports emits r =>
    Gives (mk e) s fun t => Does s g e ports emits t ∧ (t.site e).fibre = r
  let lvl := min ((modOf f).toNat % 8) 5
  let two : Bool := (modOf f).getLsbD 0
  let ports := if two then [0, 1] else [0]
  let combined : List Nat → List Nat → List Nat := fun la lb =>
    if !two then la else if (modOf f).getLsbD 1 then (List.range 512).filter fun n => la.contains n || lb.contains n else la.filter lb.contains
  let place : List Nat → Nat → Nat → Int := fun l p n => if l.contains n then (p + (l.filter (· < n)).length : Nat) else -1
  (∀ mk op, (mk, op) ∈ ([(.fscanc, 0x50), (.fscand, 0x51)] : List ((Elt → Instr) × Nat)) → CellAt s g e f op → Free s g e 0 → ValueAt s e 0 a →
    let n := if op = 0x50 then int a 1 - int a 0 else int a 1
    (n < 0 → Gives (mk e) s (Errs s g e false 0 3)) ∧
    ((q.i : Int) < n → go mk [] [(0, ints [int a 0 + q.i, q.i])] { q with i := q.i + 1 }) ∧
    (0 ≤ n → n ≤ q.i → go mk [0] [(0, stop lvl)] .reset)) ∧
  (CellAt s g e f 0x52 → Free s g e 0 → ValueAt s e 0 a → (two = true → ValueAt s e 1 b) →
    let la := maskBits a
    let lb := if two then maskBits b else []
    let next : Fibre := { q with i := 0, j := q.j + 1, pa := q.pa + la.length, pb := q.pb + lb.length }
    let token : Nat → Token := fun n => ints (([((512 * q.j + n : Nat) : Int), (q.n : Int)] : List Int) ++ if two then [place la q.pa n, place lb q.pb n] else [])
    ((combined la lb).filter (q.i ≤ ·) = [] → go .fscanb ports [] next) ∧
    (∀ n, (combined la lb).filter (q.i ≤ ·) = [n] → go .fscanb ports [(0, token n)] { next with n := q.n + 1 }) ∧
    (∀ n m r, (combined la lb).filter (q.i ≤ ·) = n :: m :: r → go .fscanb [] [(0, token n)] { q with i := n + 1, n := q.n + 1 })) ∧
  (CellAt s g e f 0x53 → Free s g e 0 → NoErrors s e ports →
    (q.rootA = none → ValueAt s e 0 a → (two = true → ValueAt s e 1 b) →
      go .fscant ports [] { q with rootA := some (maskBits a), rootB := some (if two then maskBits b else []) }) ∧
    (∀ n r, two = false → q.rootA = some (n :: r) → q.rootB = some [] → ValueAt s e 0 a →
      let bits := (maskBits a).filter (q.i ≤ ·)
      let next : Fibre := { q with i := 0, j := q.j + 1, pa := q.pa + (maskBits a).length, rootA := some r }
      (bits = [] → go .fscant [0] [] next) ∧
      (∀ m, bits = [m] → go .fscant [0] [(0, ints [(512 * n + m : Nat), (q.n : Int)])] { next with n := q.n + 1 }) ∧
      (∀ m k w, bits = m :: k :: w → go .fscant [] [(0, ints [(512 * n + m : Nat), (q.n : Int)])] { q with i := m + 1, n := q.n + 1 })))) ∧
  (∀ (s : State) (g : GraphIx) (e : Elt) (f : FrameBits) (a b : Token),
  let q := (s.site e).fibre
  let go : (Elt → Instr) → List Nat → List (Nat × Token) → Fibre → Prop := fun mk ports emits r =>
    Gives (mk e) s fun t => Does s g e ports emits t ∧ (t.site e).fibre = r
  let m := modOf f
  let start : Lane := if m.toNat % 4 = 1 then wInf true else if m.toNat % 4 = 2 then wInf false else 0
  let bare : Token := ⟨a.kind, false, false, 0, List.replicate 16 0⟩
  let result : Token := ⟨0, false, false, q.mask, (List.range 16).map fun i => if q.mask.getLsbD i then q.acc.getD i start else 0⟩
  Free s g e 0 →
  (CellAt s g e f 0x56 → ValueAt s e 0 a → ValueAt s e 1 b →
    (int b 0 < 0 → Gives (.frepeat e) s (Errs s g e false 0 (6 + 256 * 4096))) ∧
    ((q.i : Int) < int b 0 → go .frepeat [] [(0, a)] { q with i := q.i + 1 }) ∧
    (0 ≤ int b 0 → int b 0 ≤ q.i → go .frepeat [0, 1] [(0, stop (min (m.toNat % 8) 5))] .reset)) ∧
  (CellAt s g e f 0x57 →
    (ValueAt s e 0 a → Gives (.freduce e) s fun t => Does s g e [0] [] t ∧ (t.site e).fibre.mask = q.mask ||| a.mask ∧
      (t.site e).fibre.seen = true ∧ ∀ i < 16, (t.site e).fibre.acc.getD i 0 =
        if a.valid i then redOp (m.toNat % 4) (modRnd m) (q.acc.getD i start) (a.lane i) else q.acc.getD i start) ∧
    (StopAt s e 0 a → a.kind = 1 → go .freduce [0] [(0, result)] .reset) ∧
    (StopAt s e 0 a → 2 ≤ a.kind.val → q.out = false → (a.kind ≠ 7 ∨ q.seen = true) → go .freduce [] [(0, result)] { q with out := true }) ∧
    (StopAt s e 0 a → 2 ≤ a.kind.val → (q.out = true ∨ a.kind = 7 ∧ q.seen = false) →
      go .freduce [0] [(0, if a.kind = 7 then bare else stop (a.kind.val - 2))] .reset)) ∧
  (CellAt s g e f 0x58 →
    (ValueAt s e 0 a → (m.getLsbD 3 = false ∨ a.mask ≠ 0) → go .fdrop [0] [(0, a)] { q with open_ := true }) ∧
    (ValueAt s e 0 a → m.getLsbD 3 = true → a.mask = 0 → go .fdrop [0] [] q) ∧
    (StopAt s e 0 a → a.kind ≠ 7 → a.kind.val ≤ m.toNat % 8 + 1 → q.open_ = false → go .fdrop [0] [] q) ∧
    (StopAt s e 0 a → (a.kind = 7 ∨ m.toNat % 8 + 1 < a.kind.val ∨ q.open_ = true) →
      Gives (.fdrop e) s fun t => Does s g e [0] [(0, bare)] t ∧ (t.site e).fibre.open_ = false)))

/-- R213: FISECT and FUNION compare the coordinates at A and B. Equal ones are taken together and emitted with their positions; the smaller one
is taken alone, dropped by FISECT and emitted by FUNION with -1 for the other; closings of both end the fibre. A coordinate that does not rise is malformed.
R98, R99, R210-R214: a stop or D at every port of a scan, a merge or a repeat is consumed and emitted with all other fields zero, and the
cell is reset. -/
def Obligations.FibreMerges : Prop :=
  (∀ (s : State) (g : GraphIx) (e : Elt) (f : FrameBits) (mk : Elt → Instr) (op : Nat) (a b : Token),
  (mk, op) ∈ ([(.fisect, 0x54), (.funion, 0x55)] : List ((Elt → Instr) × Nat)) →
  let q := (s.site e).fibre
  let go : List Nat → List (Nat × Token) → Fibre → Prop := fun ports emits r =>
    Gives (mk e) s fun t => Does s g e ports emits t ∧ (t.site e).fibre = r
  let emits : Token → List (Nat × Token) := fun k => if op = 0x55 then [(0, k)] else []
  CellAt s g e f op → Free s g e 0 →
  (ValueAt s e 0 a → ValueAt s e 1 b → int a 0 = int b 0 → Rises q.ca (int a 0) → Rises q.cb (int b 0) →
    go [0, 1] [(0, ints [int a 0, q.pa, q.pb])] { q with pa := q.pa + 1, pb := q.pb + 1, ca := some (int a 0), cb := some (int b 0) }) ∧
  (ValueAt s e 0 a → (ValueAt s e 1 b ∧ int a 0 < int b 0 ∨ StopAt s e 1 b) →
    (Rises q.ca (int a 0) → go [0] (emits (ints [int a 0, q.pa, -1])) { q with pa := q.pa + 1, ca := some (int a 0) }) ∧
    (¬Rises q.ca (int a 0) → Gives (mk e) s (Errs s g e false 0 2))) ∧
  (ValueAt s e 1 b → (ValueAt s e 0 a ∧ int b 0 < int a 0 ∨ StopAt s e 0 a) →
    (Rises q.cb (int b 0) → go [1] (emits (ints [int b 0, -1, q.pb])) { q with pb := q.pb + 1, cb := some (int b 0) }) ∧
    (¬Rises q.cb (int b 0) → Gives (mk e) s (Errs s g e false 0 (2 + 256 * 4096)))) ∧
  (StopAt s e 0 a → StopAt s e 1 b →
    (a.kind = b.kind → go [0, 1] [(0, ⟨a.kind, false, false, 0, List.replicate 16 0⟩)] .reset) ∧
    (a.kind ≠ b.kind → Gives (mk e) s (Errs s g e false 0 (1 + 256 * (a.kind.val + 8 * b.kind.val + 512 * 3)))))) ∧
  (∀ (s : State) (g : GraphIx) (e : Elt) (f : FrameBits) (mk : Elt → Instr) (op : Nat) (ports : List Nat) (k : Fin 8),
  (mk, op, ports) ∈ ([(.fscanc, 0x50, [0]), (.fscand, 0x51, [0]), (.fscanb, 0x52, if (modOf f).getLsbD 0 then [0, 1] else [0]), (.fisect, 0x54, [0, 1]),
    (.funion, 0x55, [0, 1]), (.frepeat, 0x56, [0, 1])] : List ((Elt → Instr) × Nat × List Nat)) →
  CellAt s g e f op → Free s g e 0 → Stops s e ports k →
  Gives (mk e) s fun t => Does s g e ports [(0, ⟨k, false, false, 0, List.replicate 16 0⟩)] t ∧ (t.site e).fibre = .reset)

/-- R195-R202: ROUTE, STEER, MERGE, JOIN, SPLIT and ORDER move tokens whole. STEER sends a value to X where its control is true and else to Y; MERGE takes
P where it is true and else Q; JOIN takes what is there, by turns where both are; SPLIT and ORDER go by turns. A stop or D that stands at all
inputs goes to all outputs. -/
def Obligations.RoutersMoveTokens : Prop := ∀ (s : State) (g : GraphIx) (e : Elt) (f : FrameBits) (p q k : Token),
  let r := (s.site e).router
  let at_ : Nat → List Nat → Prop := fun op outs => RouterAt s g e f op ∧ (∀ o ∈ outs, Free s g e o)
  let go : (Elt → Instr) → List Nat → List (Nat × Token) → Prop := fun mk ports emits => Gives (mk e) s fun t => Does s g e ports emits t
  let turns : (Elt → Instr) → List Nat → List (Nat × Token) → Prop := fun mk ports emits =>
    Gives (mk e) s fun t => Does s g e ports emits t ∧ (t.site e).router = { r with turn := !r.turn }
  let outs := if (modOf f).getLsbD 0 then [1, 2] else [1]
  (at_ 1 outs → (ValueAt s e 3 p ∧ (s.site e).rout.skip = false ∨ StopAt s e 3 p) → go .route [3] (outs.map fun o => (o, p))) ∧
  (at_ 1 outs → ValueAt s e 3 p → (s.site e).rout.skip = true → go .route [3] []) ∧
  (ValueAt s e 3 p → ValueAt s e 5 k → (Picks f k → at_ 2 [1] → go .steer [3, 5] [(1, p)]) ∧ (¬Picks f k → at_ 2 [2] → go .steer [3, 5] [(2, p)])) ∧
  (at_ 2 [1, 2] → StopAt s e 3 p → StopAt s e 5 k → p.kind = k.kind → go .steer [3, 5] [(1, p), (2, p)]) ∧
  (at_ 3 [1] → ValueAt s e 5 k → NoErrors s e [3, 4] →
    (Picks f k → ValueAt s e 3 p → go .merge [3, 5] [(1, p)]) ∧ (¬Picks f k → ValueAt s e 4 q → go .merge [4, 5] [(1, q)])) ∧
  (at_ 3 [1] → StopAt s e 5 k → StopAt s e 3 p → StopAt s e 4 q → p.kind = k.kind → q.kind = k.kind → go .merge [3, 4, 5] [(1, k)]) ∧
  (at_ 4 [1] → NoErrors s e [3, 4] →
    (ValueAt s e 3 p → (∀ q, ¬ValueAt s e 4 q) → go .join [3] [(1, p)]) ∧
    (ValueAt s e 4 q → (∀ p, ¬ValueAt s e 3 p) → go .join [4] [(1, q)]) ∧
    (ValueAt s e 3 p → ValueAt s e 4 q → if r.turn then turns .join [4] [(1, q)] else turns .join [3] [(1, p)]) ∧
    (StopAt s e 3 p → StopAt s e 4 q → p.kind = q.kind → go .join [3, 4] [(1, p)])) ∧
  (ValueAt s e 3 p → at_ 7 [if r.turn then 2 else 1] → turns .split [3] [(if r.turn then 2 else 1, p)]) ∧
  (StopAt s e 3 p → at_ 7 [1, 2] → go .split [3] [(1, p), (2, p)]) ∧
  (at_ 8 [1] → NoErrors s e [3, 4] →
    (r.turn = false → ValueAt s e 3 p → turns .order [3] [(1, p)]) ∧ (r.turn = true → ValueAt s e 4 q → turns .order [4] [(1, q)]) ∧
    (StopAt s e 3 p → StopAt s e 4 q → p.kind = q.kind → go .order [3, 4] [(1, if r.turn then q else p)]))

/-- R203-R206: CARRY lets LIMIT values into its loop, recirculates those whose control is true, and passes a closing once the loop is empty; INVAR repeats P for every
control value; DISCARD consumes P, and passes error tokens and D with XEN.
R100, R206: a router element other than DISCARD that finds an error token at an input sends the first one, in port order, to its error output and
drains; closings of different kinds make STEER, MERGE, JOIN and ORDER emit the error token 0x01. -/
def Obligations.RoutersLoop : Prop :=
  (∀ (s : State) (g : GraphIx) (e : Elt) (f : FrameBits) (p q k : Token),
  let r := (s.site e).router
  let go : (Elt → Instr) → List Nat → List (Nat × Token) → (Router → Prop) → Prop := fun mk ports emits R =>
    Gives (mk e) s fun t => Does s g e ports emits t ∧ R (t.site e).router
  let lvl := (modOf f).toNat % 8
  (RouterAt s g e f 5 → Free s g e 1 → NoErrors s e [3, 4, 5] →
    (ValueAt s e 5 k → Picks f k → ValueAt s e 4 q → go .carry [4, 5] [(1, q)] (· = r)) ∧
    (ValueAt s e 5 k → ¬Picks f k → go .carry [5] [] (· = { r with occ := r.occ - 1 })) ∧
    ((s.site e).head 5 = none → r.closing = false → ValueAt s e 3 p → r.occ < (modOf f).toNat % 256 →
      go .carry [3] [(1, p)] (· = { r with occ := r.occ + 1 })) ∧
    ((s.site e).head 5 = none → r.closing = false → StopAt s e 3 p → r.occ = 0 → go .carry [3] [(1, p)] (· = { r with closing := true })) ∧
    (StopAt s e 5 k → r.closing = true → StopAt s e 4 q → q.kind = k.kind →
      go .carry [4, 5] [] (fun x => if k.kind = 7 then x = .reset else x = { r with closing := false }))) ∧
  (RouterAt s g e f 6 → Free s g e 1 → NoErrors s e [3, 5] →
    (ValueAt s e 5 k → ValueAt s e 3 p → go .invar [5] [(1, p)] (· = r)) ∧
    (StopAt s e 5 k → k.kind ≠ 7 → k.kind.val < lvl + 1 → go .invar [5] [(1, k)] fun _ => True) ∧
    (StopAt s e 5 k → k.kind ≠ 7 → k.kind.val = lvl + 1 → r.half = 0 → ValueAt s e 3 p → go .invar [3, 5] [(1, k)] fun _ => True) ∧
    (StopAt s e 5 k → (k.kind = 7 ∨ lvl + 1 < k.kind.val) → r.half = 0 → ValueAt s e 3 p → go .invar [3] [] (· = { r with half := 1 })) ∧
    (StopAt s e 5 k → (k.kind = 7 ∨ lvl + 1 < k.kind.val) → StopAt s e 3 p → p.kind = k.kind → go .invar [3, 5] [(1, k)] fun x => x.half = 0)) ∧
  (RouterAt s g e f 9 → (s.site e).head 3 = some p →
    ((modOf f).getLsbD 0 = true → (p.err = true ∨ p.kind = 7) → Free s g e 1 → go .discard [3] [(1, p)] (· = r)) ∧
    (((modOf f).getLsbD 0 = false ∨ p.err = false ∧ p.kind ≠ 7) → go .discard [3] [] (· = r)))) ∧
  (∀ (s : State) (g : GraphIx) (e : Elt) (f : FrameBits) (mk : Elt → Instr) (op : Nat) (ins : List Nat) (o : Nat),
  (mk, op, ins, o) ∈ ([(.route, 1, [3], 1), (.steer, 2, [3, 5], 2), (.merge, 3, [3, 4, 5], 1), (.join, 4, [3, 4], 1), (.carry, 5, [3, 4, 5], 1), (.invar, 6, [3, 5], 1),
    (.split, 7, [3], 1), (.order, 8, [3, 4], 1)] : List ((Elt → Instr) × Nat × List Nat × Nat)) →
  RouterAt s g e f op → Free s g e o →
  (∀ p k, p ∈ ins → (s.site e).head p = some k → k.err = true → (∀ q ∈ ins, q < p → NoErrors s e [q]) →
    Gives (mk e) s fun t => Does s g e [p] [(o, k)] t ∧ (t.site e).rout.drain = some []) ∧
  (∀ p k, (op = 2 ∧ StopAt s e 5 k ∨ op = 4 ∧ StopAt s e 4 k ∨ op = 8 ∧ StopAt s e 4 k) → StopAt s e 3 p → p.kind ≠ k.kind →
    Gives (mk e) s (Errs s g e true o (1 + 256 * (if op = 2 then p.kind.val + 64 * k.kind.val + 512 * 5 else p.kind.val + 8 * k.kind.val + 512 * 3)))))

/-- R303-R305, R308: an access at every valid lane in lane order: SPRD reads, SPWR writes, the atomics do both, on 32-bit words or 8-byte
slots; what was read is emitted. An offset outside the extent or not aligned gives the error token 0x26 with the lane, and no lane is performed.
R248, R306, R307: SPBUF fills a stage slot by slot and drains one; SPFIFO keeps whole tokens. A stage is EMPTY, FILLING, FULL or DRAINING under its owner, and the
ring moves on when it is released; a release by another than its owner is refused with 0x2D. An SPFIFO without a port never fires (R396). -/
def Obligations.Tiles : Prop :=
  (∀ (s : State) (g : GraphIx) (e : Elt) (f : FrameBits) (mk : Elt → Instr) (op : Nat) (ports : List Nat) (a b c : Token),
  (mk, op, ports) ∈ tileAccesses →
  let mask := ports.foldl (fun m p => m &&& ((if p = 0 then a else if p = 1 then b else c).mask)) 0xFFFF
  let good : Nat → Prop := fun i => tileBase f ≤ int a i ∧ int a i < tileBase f + tileDepth f * tileBuf f ∧
    int a i % (if tileSlot f then 8 else 4) = 0
  TileAt s g e f op → Free s g e 0 → ValueAt s e 0 a → (1 ∈ ports → ValueAt s e 1 b) → (2 ∈ ports → ValueAt s e 2 c) →
  ((∀ i < 16, mask.getLsbD i = true → good i) → (op = 2 ∨ s.badWords e = []) →
    ∃ ms olds, ms 0 = s.tileBytes e ∧ Accessed op f mask a b c ms olds ∧
      Gives (mk e) s fun t => TileFired s g e ports (if op = 2 then [] else
        [(0, ⟨0, false, false, mask, (List.range 16).map fun i => if mask.getLsbD i then olds i else 0⟩)]) (ms 16) t) ∧
  (∀ i < 16, mask.getLsbD i = true → ¬good i → (∀ j < i, mask.getLsbD j = true → good j) →
    Gives (mk e) s fun t => (t.site e).elem.drain = some [] ∧ ∃ k, TileFired s g e [] [(0, k)] (s.tileBytes e) t ∧ k.err = true ∧
      k.lane 0 = BitVec.ofNat 40 (0x26 + 256 * i))) ∧
  (∀ (s : State) (g : GraphIx) (e : Elt) (f : FrameBits) (a : Token),
  let x := (s.site e).tile
  let m := s.tileBytes e
  let site := e.site.val
  let next : Nat → Nat := fun i => (i + 1) % max (tileDepth f) 1
  let st : Tile → Nat → Byte := fun t i => t.ring.get 0 i
  let go : (Elt → Instr) → List Nat → List (Nat × Token) → (SMap Byte → Prop) → (Tile → Prop) → Prop := fun mk ports emits M T =>
    Gives (mk e) s fun t => ∃ m1, TileFired s g e ports emits m1 t ∧ M m1 ∧ T (t.site e).tile
  let bare : Token := ⟨a.kind, false, false, 0, List.replicate 16 0⟩
  let slots : Nat → Nat → List Lane := fun n p => (List.range 16).map fun i => if i < n then tileRead m true (stageOff f x.cp + 128 * p + 8 * i) else 0
  let refused : List (Nat × Token) → Prop := fun emits => Gives (.spbuf e) s fun t => (t.site e).tile = { x with pos := 0 } ∧
    (∀ p ∈ emits, Emits t e p.1 p.2) ∧ t.tileBytes e = m ∧ ∃ i ∈ (t.graph g).raised, i.cause = 0x2D
  (TileAt s g e f 3 → Free s g e 0 → tileDrains f = false → ValueAt s e 0 a → (x.pos = 0 → st x x.pp = 0) → x.pos + 128 ≤ tileBuf f →
    go .spbuf [0] [] (fun m1 => (∀ i < 16, ∀ k < 8, tileByte m1 (stageOff f x.pp + x.pos + 8 * i + k) = BitVec.ofNat 8 ((a.lane i).toNat / 2 ^ (8 * k))) ∧
        ∀ o, (o < stageOff f x.pp + x.pos ∨ stageOff f x.pp + x.pos + 128 ≤ o) → tileByte m1 o = tileByte m o)
      (fun y => st y x.pp = (if x.pos = 0 then BitVec.ofNat 8 (0x20 + site) else st x x.pp) ∧ y.pos = x.pos + 128 ∧ y.pp = x.pp)) ∧
  (TileAt s g e f 3 → Free s g e 0 → tileDrains f = false → StopAt s e 0 a → a.kind ≠ 7 → a.kind.val < rlvlOf f + 1 →
    (x.pos = 0 → go .spbuf [0] [(0, bare)] (· = m) (· = x)) ∧
    (x.pos ≠ 0 → st x x.pp = BitVec.ofNat 8 (0x20 + site) → tileCen f = false →
      go .spbuf [0] [(0, bare)] (· = m) (fun y => st y x.pp = 0x80 ∧ y.pp = next x.pp ∧ y.pos = 0)) ∧
    (x.pos ≠ 0 → st x x.pp ≠ BitVec.ofNat 8 (0x20 + site) → refused [(0, bare)])) ∧
  (TileAt s g e f 3 → Free s g e 0 → tileDrains f = true → x.pos = 0 → ValueAt s e 0 a → st x x.cp = 0x80 → s.badWords e = [] → 0 < tileBuf f →
    let n := min 16 (tileBuf f / 8)
    go .spbuf [0] [(0, ⟨0, false, false, BitVec.ofNat 16 (2 ^ n - 1), slots n 0⟩)] (· = m)
      (fun y => st y x.cp = BitVec.ofNat 8 (0xC0 + site) ∧ y.pos = 1)) ∧
  (TileAt s g e f 3 → Free s g e 0 → tileDrains f = true → x.pos ≠ 0 → s.badWords e = [] → 128 * x.pos < tileBuf f →
    let n := min 16 (tileBuf f / 8 - 16 * x.pos)
    go .spbuf [] [(0, ⟨0, false, false, BitVec.ofNat 16 (2 ^ n - 1), slots n x.pos⟩)] (· = m) (· = { x with pos := x.pos + 1 })) ∧
  (TileAt s g e f 3 → Free s g e 0 → tileDrains f = true → x.pos ≠ 0 → tileBuf f ≤ 128 * x.pos →
    (st x x.cp = BitVec.ofNat 8 (0xC0 + site) → go .spbuf [] [(0, stop 0)] (· = m) (fun y => st y x.cp = 0 ∧ y.cp = next x.cp ∧ y.pos = 0)) ∧
    (st x x.cp ≠ BitVec.ofNat 8 (0xC0 + site) → refused [(0, stop 0)])) ∧
  (TileAt s g e f 4 → (s.site e).portless = true → exec (.spfifo e) s = .next s) ∧
  (TileAt s g e f 4 → (s.site e).portless = false → (s.site e).head 0 = some a → st x x.pp = 0 → (st x x.cp ≠ 0x80 ∨ ¬Free s g e 0) →
    go .spfifo [0] [] (fun m1 => m1.getN 0 (stageOff f x.pp) 83 = tokenBytes a ∧ ∀ o, (o < stageOff f x.pp ∨ stageOff f x.pp + 83 ≤ o) → tileByte m1 o = tileByte m o)
      (fun y => st y x.pp = 0x80 ∧ y.pp = next x.pp)) ∧
  (TileAt s g e f 4 → (s.site e).portless = false → (s.site e).head 0 = none → st x x.cp = 0x80 → Free s g e 0 → s.badWords e = [] →
    go .spfifo [] [(0, tokenOf (m.getN 0 (stageOff f x.cp) 83))] (· = m) (fun y => st y x.cp = 0 ∧ y.cp = next x.cp)) ∧
  (a.lanes.length = 16 → tokenOf (tokenBytes a) = a))

/-- R365, R366: MMA and SMMA start a group, while their page's section runs, with a zero accumulator, or, with INIT, with one read from port C; a group that has ended is copied into the
output buffer once that is empty; the buffer leaves token by token: for each row two halves of 16 entries and a stop, S1 after the last.
R364, R367, R368: MXCFG carries out the commands at port A: steps, a zero accumulator or one from port C, a copy into the buffer, formats; a stop or D passes; an unknown
command gives the error token 0x09. When the count of an armed node has run out, it emits D. -/
def Obligations.MatrixGroups : Prop :=
  (∀ (s : State) (g : GraphIx) (e : Elt) (f : FrameBits) (mk : Elt → Instr) (op : Nat),
  (mk, op) ∈ ([(.mma, 0x40), (.smma, 0x41)] : List ((Elt → Instr) × Nat)) →
  let q := (s.site e).matrix
  let idle : Prop := q.due = false ∧ q.buf = [] ∧ q.begun = false ∧ q.halted = false ∧ q.expire = false
  let runs : Prop := q.stopped = false ∧ (s.planeOf e).page ∈ (s.graph g).running
  let go : List Nat → List (Nat × Token) → Matrix → Prop := fun ports emits r =>
    Gives (mk e) s fun t => Does s g e ports emits t ∧ (t.site e).matrix = r
  CellAt s g e f op →
  (q.due = true → q.buf = [] → go [] [] { q with buf := accShape q.acc, due := false, steps := 0, begun := false }) ∧
  (∀ t r, q.buf = t :: r → Free s g e 0 → go [] [(0, t)] { q with buf := r }) ∧
  (idle → mxInit f = false → q.load = 0 → runs → go [] [] { q with acc := [], begun := true }) ∧
  (idle → q.load = 0 → ¬runs → exec (mk e) s = .next s) ∧
  (∀ k n, idle → mxInit f = true → q.load = n → (n = 0 → runs) → n < 95 → (s.site e).head 2 = some k → k.err = false →
    (if n % 3 < 2 then k.kind = 0 else k.kind = if n / 3 < 31 then 1 else 2) →
    Gives (mk e) s fun t => Does s g e [2] [] t ∧ (t.site e).matrix = { q with load := n + 1, held := (t.site e).matrix.held } ∧
      (n % 3 < 2 → ∀ i < 16, k.valid i = true →
        (t.site e).matrix.held.get 0 (32 * (n / 3) + 16 * (n % 3) + i) = BitVec.ofNat 32 (fmtFp32.store (readW40 (k.lane i)) false).1)) ∧
  (∀ k, idle → mxInit f = true → q.load = 95 → (s.site e).head 2 = some k → k.err = false → k.kind = 2 →
    go [2] [] { q with acc := q.held, held := [], load := 0, begun := true }) ∧
  (∀ n < 32, (accShape q.acc)[3 * n + 2]? = some (stop (if n < 31 then 0 else 1)) ∧ ∀ h < 2, ∃ k, (accShape q.acc)[3 * n + h]? = some k ∧
    IsValue k 0xFFFF false fun i => (fmtFp32.read (q.acc.get 0 (32 * n + 16 * h + i)).toNat).round .rne)) ∧
  (∀ (s : State) (g : GraphIx) (e : Elt) (f : FrameBits) (a : Token) (op : Nat),
  let x := s.site e
  let q := x.matrix
  let c := (a.lane 0).toNat % 256
  let v := ((a.lane 1).setWidth 32).toNat
  let go : Instr → List Nat → List (Nat × Token) → Matrix → Prop := fun i ports emits r =>
    Gives i s fun t => Does s g e ports emits t ∧ (t.site e).matrix = r
  (CellAt s g e f op → q.expire = true → q.due = false → q.buf = [] → Free s g e 0 →
    go (.tilesExpire e) [] [(0, ⟨7, false, false, 0, List.replicate 16 0⟩)] { q with expire := false }) ∧
  (CellAt s g e f 0x44 →
    (∀ t r, q.buf = t :: r → Free s g e 0 → go (.mxcfg e) [] [(0, t)] { q with buf := r }) ∧
    (q.cmd = none → q.expire = false →
      (q.buf = [] → Free s g e 0 → StopAt s e 0 a → a.kind ≠ 7 → a.kind.val < rlvlOf f + 1 →
        go (.mxcfg e) [0] [(0, ⟨a.kind, false, false, 0, List.replicate 16 0⟩)] q) ∧
      (q.buf = [] → Free s g e 0 → ValueAt s e 0 a → a.valid 0 = true → a.valid 1 = true → (c < 0x40 ∨ 0x44 < c) →
        Gives (.mxcfg e) s fun t => (t.site e).elem.drain = some [] ∧ ∃ k, Does s g e [0] [(0, k)] t ∧ k.err = true ∧ k.lane 0 = BitVec.ofNat 40 (9 + 256 * c)) ∧
      (ValueAt s e 0 a → a.valid 0 = true → a.valid 1 = true →
        (c = 0x40 → go (.mxcfgMma e) [0] [] (if v % 65536 = 0 then q else { q with cmd := some ⟨0x40, v % 65536⟩ })) ∧
        (c = 0x41 → go (.mxcfgSmma e) [0] [] (if v % 65536 = 0 then q else { q with cmd := some ⟨0x41, v % 65536⟩ })) ∧
        (c = 0x42 → v % 2 = 0 → go (.accld e) [0] [] { q with acc := [] }) ∧
        (c = 0x42 → v % 2 = 1 → x.routesC = true → go (.accld e) [0] [] { q with cmd := some ⟨0x42, 0⟩, load := 0, held := [] }) ∧
        (c = 0x43 → q.buf = [] → go (.accst e) [0] [] { q with buf := accShape q.acc }) ∧
        (c = 0x44 → go (.mxcfgSetfmt e) [0] [] { q with afmt := some (v / 2 ^ 13 % 8), bfmt := some (v / 2 ^ 10 % 8) })))))

/-- R358, R360, R361, R366-R369: a step takes the oldest FULL stage of each operand tile and adds to every entry the exact dot of a row of A and a column of B, rounded
once to binary32; an operand that its stage is too short for makes the node emit the error token 0x08 and halt. -/
def Obligations.MatrixSteps : Prop := ∀ (s : State) (g : GraphIx) (e : Elt) (f fa fb : FrameBits) (op : Nat),
  let ea : Elt := { e with site := 2 }
  let eb : Elt := { e with site := 13 }
  let x := s.site e
  let q := x.matrix
  let sparse := mxSparse op x
  let a := nextStage s ea fa
  let b := nextStage s eb fb
  let frame : State → Prop := fun t => (∀ u, u ≠ e → u ≠ ea → u ≠ eb → t.site u = s.site u) ∧ Released1 s t ea fa ∧ Released1 s t eb fb ∧
    (∀ h, h ≠ g → t.graph h = s.graph h) ∧ t = { s with sites := t.sites, graphs := t.graphs }
  CellAt s g e f op → StepReady s e f fa fb op → (op = 0x44 ∨ (s.planeOf e).page ∈ (s.graph g).running) →
  (operandNeed sparse (q.aCode f) a ≤ tileBuf fa → operandNeed sparse (q.bCode f) b ≤ tileBuf fb →
    Gives (.matrixStep e) s fun t => frame t ∧ (t.site e).matrix = q.stepped op f (t.site e).matrix.acc ∧
      ∀ i < 32, ∀ j < 32, (t.site e).matrix.acc.get 0 (32 * i + j) =
        mxEntry (q.acc.get 0 (32 * i + j)) (mxDot ((operandBlocks sparse (q.aCode f) a).getD i []) ((operandBlocks sparse (q.bCode f) b).getD j []))) ∧
  (tileBuf fa < operandNeed sparse (q.aCode f) a → q.buf = [] → Free s g e 0 →
    Gives (.matrixStep e) s fun t => frame t ∧ (t.site e).matrix.halted = true ∧ (t.site e).matrix.acc = [] ∧ (t.site e).elem.drain = some [] ∧
      ∃ k, Emits t e 0 k ∧ k.err = true ∧ k.lane 0 = 8)

/-! ### Address generators (12, 16, 17, 20) -/

/-- R253, R95, R277: at every turn of a generator the oldest token it delivers, once its reply has come, goes to its output if that is free; and the next plane of a
group that it still has to request is requested, before anything else.
R309, R316, R347, R387: stops and D of the input pass in their place: as they are, or one or two levels higher, at most S5. (S0 closes a
request, and a frame's stops belong to it: RequestsAndFrames.) -/
def Obligations.GeneratorTokens : Prop :=
  (∀ (s : State) (g : GenAt) (mk : GenAt → Instr) (op : Nat),
  (mk, op) ∈ generators → s.genRuns g op = true →
  (∀ k r, (s.gen g).half.drain = none → s.genFree g = true → (s.gen g).line = ⟨k, true, none, none⟩ :: r → (∀ i ∈ r, i.owed = none) →
    (s.gen g).inq.toks = [] → (op = 1 → (s.gen g).on = false) →
    Turn (mk g) s g fun v => OnlyGen s v g ∧ (v.gen g).out.nxt = some k ∧ (v.gen g).line = r) ∧
  (∀ a i b j els t w, ((s.genDeliver g).gen g).line = a ++ i :: b → (∀ k ∈ a, k.owed = none) → i.owed = some (j, els) →
    gplane g els j (s.genDeliver g) = .ok (t, w) →
    Turn (mk g) s g fun v => OnlyGen (s.genDeliver g) v g ∧ (v.gen g).line = a ++ Item.of t false :: b ∧ (v.gen g).inq = ((s.genDeliver g).gen g).inq)) ∧
  (∀ (s : State) (g : GenAt) (mk : GenAt → Instr) (op : Nat) (t : Token),
  let u := s.genDeliver g
  let q := u.gen g
  let sends : GenAt → Instr → List Token → Prop := fun g i ts => Turn i s g fun v => OnlyGen u v g ∧ Took u v g ∧ Queued u v g ts
  GenReady s g op → Meets u g t → t.kind ≠ 0 →
  ((mk, op) ∈ passers → q.part.first = none → (op = 0x0C → t.kind ≠ 1) → (op = 0x0D → t.kind = 7) → sends g (mk g) (if gOen q.f then [bareOf t.kind] else [])) ∧
  (op = 0x05 → q.xfer = [] → sends g (.rowg g) (if gOen q.f then [raisedStop t 1] else [])) ∧
  ((mk, op) ∈ ([(.camg, 0x11), (.camr, 0x12)] : List ((GenAt → Instr) × Nat)) → sends g (mk g) [raisedStop t 1]) ∧
  (op = 0x14 → sends g (.pleat g) [raisedStop t 2]))

/-- R261-R265, R255, R281, R403: how a generator reaches memory. An address beyond the range is index bounds, 0x26; one that the micro-TLB of its unit holds uses that
translation; else the walk decides. A load whose bytes can be delivered returns them; a store enters the pocket with its physical addresses and the window that is open, and
no byte of memory changes.
R254, R255, R309, R311, R315, R316, R318: an index outside its extent or its range gives 0x26 with the first such lane, and no lane of the token is
performed (the range of a bag's row that the hot-row map holds is its copy's); an error token at the input goes through, or, at a generator without an output, raises its cause; a load that fails raises its cause. -/
def Obligations.GeneratorAccesses : Prop :=
  (∀ (s : State) (g : GenAt) (va n : Nat) (kind : Access) (bs : List Byte) (k : PocketKind),
  let asid := (s.graph g.graph).asid
  (2 ^ 52 ≤ va → gxlat g va kind s = .error (.bad 0x26 0 va)) ∧
  (∀ e, va < 2 ^ 52 → (s.micro.get [] (s.gen g).unit).find? (fun t => t.hits asid va) = some e →
    (∀ c, permFabric e.leaf kind = some c → gxlat g va kind s = .error (.fault c va)) ∧
    (permFabric e.leaf kind = none → ∃ u, gxlat g va kind s = .ok (e.pa va, u) ∧ OnlyGen s u g)) ∧
  (va < 2 ^ 52 → s.micro.get [] (s.gen g).unit = [] → s.tcs.get [] (s.gen g).slice = [] →
    (∀ c, s.walk asid va = .fault c → gxlat g va kind s = .error (.fault c va)) ∧
    (∀ lvl p, s.walk asid va = .leaf lvl p → permFabric (mkTlb asid va lvl p).leaf kind = none →
      ∃ u, gxlat g va kind s = .ok ((mkTlb asid va lvl p).pa va, u) ∧ OnlyGen s u g)) ∧
  (∀ pas u, gpas g va n .load s = .ok (pas, u) →
    (∀ c, u.undeliverables pas = some c → gread g va n s = .error (.fault c va)) ∧
    (u.undeliverables pas = none → isBlock pas = false → gread g va n s = .ok (u.bytesAt pas, u))) ∧
  (∀ pas u, gpas g va bs.length .store s = .ok (pas, u) → ∃ v, gput g va bs k s = .ok ((), v) ∧ OnlyGen s v g ∧
    (v.graph g.graph).pocket = (u.graph g.graph).pocket ++ [⟨g.gen.val, (u.gen g).win, pas, bs, k⟩])) ∧
  (∀ (s : State) (g : GenAt) (mk : GenAt → Instr) (op : Nat) (t : Token),
  let u := s.genDeliver g
  let q := u.gen g
  (GenReady s g op → Meets u g t → t.kind = 0 →
    (∀ i < 16, op = 0x03 → t.valid i = true → ¬IndexOk q 0 (int t i) → (∀ j < i, t.valid j = true → IndexOk q 0 (int t j)) →
      Gives (.gath g) s fun w => GenErrs u w g (0x26 + 256 * i)) ∧
    (∀ i < 16, op = 0x05 → t.valid i = true → q.rowOk (int t i) = false → (∀ j < i, t.valid j = true → q.rowOk (int t j) = true) →
      Gives (.rowg g) s fun w => GenErrs u w g (0x26 + 256 * i)) ∧
    (∀ i < 16, op = 0x06 → ∀ w0 cp, HotChosen u w0 g → Copies w0 g t cp → t.valid i = true → q.bagRowOk (int t i) (cp i) = false →
      (∀ j < i, t.valid j = true → q.bagRowOk (int t j) (cp j) = true) → Gives (.bagsum g) s fun w => GenErrs u w g (0x26 + 256 * i)) ∧
    (∀ c va, op = 0x03 → (∀ i < 16, t.valid i = true → IndexOk q 0 (int t i)) → asks g (named q t (fun _ => true) 16) (opened u g) = .error (.fault c va) →
      Gives (.gath g) s fun w => (∃ i, (w.graph g.graph).raised = (u.graph g.graph).raised ++ [i] ∧ i.cause = c ∧ i.addr = va) ∧ w.mem = s.mem)) ∧
  (GenReady s g op → (mk, op) ∈ generators → op ≠ 1 → (u.gen g).inq.toks.head? = some t → t.err = true →
    Turn (mk g) s g fun v => OnlyGen u v g ∧ Took u v g ∧
      (gOen q.f = true → (v.gen g).line = (u.gen g).line ++ [⟨t, true, none, none⟩] ∧ (op = 6 → (v.gen g).part = q.part)) ∧
      (gOen q.f = false → ∃ i, (v.graph g.graph).raised = (u.graph g.graph).raised ++ [i] ∧ i.cause = (t.lane 0).setWidth 8 ∧ i.token = some t)))

/-- R277, R315, R319: GATH loads the elements that its valid lanes name and delivers them; SCAT stores a value's lanes at the elements that an index token names; of an SD
format the value is a group, up to its S0; chained opcodes make one entry of the ordering buffer for each token, or for each pair, with the wave of lane 15. -/
def Obligations.IndexedAccess : Prop := ∀ (s : State) (g : GenAt) (op : Nat) (t idx : Token),
  let u := s.genDeliver g
  let q := u.gen g
  let go : Instr → (State → Prop) → Prop := fun i P => Turn i s g fun v => Took u v g ∧ P v
  let wave : Token → Nat := fun k => (k.lane 15).toNat % 65536
  let inside : Token → (Nat → Bool) → Nat → Prop := fun k ok n => ∀ i < n, k.valid i = true → ok i = true → IndexOk q 0 (int k i)
  GenReady s g op → Meets u g t →
  (op = 0x03 → t.kind = 0 → inside t (fun _ => true) 16 → ∀ k w, asks g (named q t (fun _ => true) 16) (opened u g) = .ok (k, w) →
    go (.gath g) fun v => OnlyGen u v g ∧ (v.gen g).line = q.line ++ items q k (named q t (fun _ => true) 16) []) ∧
  (∀ mk, (mk, op) ∈ ([(.scat, 0x04), (.chst, 0x09), (.chamo, 0x0A)] : List ((GenAt → Instr) × Nat)) → q.part.first = none → t.kind = 0 → (op = 0x04 ∨ t.valid 15 = true) →
    go (mk g) fun v => OnlyGen u v g ∧ (v.gen g).part.first = some t ∧ (v.gen g).part.toks = [] ∧ (v.gen g).line = q.line) ∧
  (∀ mk d, (mk, op) ∈ ([(.scat, 0x04), (.chst, 0x09)] : List ((GenAt → Instr) × Nat)) → q.part.first = some idx → q.fmt = .sd d → t.kind = 0 →
    go (mk g) fun v => OnlyGen u v g ∧ (v.gen g).part.toks = q.part.toks ++ [t] ∧ (v.gen g).part.first = some idx ∧ (v.gen g).line = q.line) ∧
  (∀ d, q.part.first = some idx → q.fmt = .sd d → t.kind ≠ 0 → t.kind ≠ 7 → q.part.toks ≠ [] →
    (op = 0x04 → inside idx (q.part.toks.headD t).valid 16 → ∀ w, gstorePair g (named q idx (q.part.toks.headD t).valid 16) q.part.toks u = .ok ((), w) →
      go (.scat g) fun v => OnlyGen u v g ∧ (v.graph g.graph).pocket = (w.graph g.graph).pocket ∧ (v.gen g).part.first = none) ∧
    (op = 0x09 → inside idx (q.part.toks.headD t).valid 15 → go (.chst g) fun v => OnlyGen u v g ∧ EntryOf u v g (wave idx) (some idx) q.part.toks ∧
      (v.gen g).part.first = none ∧ (v.gen g).line = q.line)) ∧
  (op = 0x04 → q.part.first = some idx → (∀ d, q.fmt ≠ .sd d) → t.kind = 0 → inside idx t.valid 16 →
    ∀ w, gstorePair g (named q idx t.valid 16) [t] u = .ok ((), w) →
    go (.scat g) fun v => OnlyGen u v g ∧ (v.graph g.graph).pocket = (w.graph g.graph).pocket ∧ (v.gen g).part.first = none) ∧
  (op = 0x08 → t.kind = 0 → t.valid 15 = true → inside t (fun _ => true) 15 → go (.chld g) fun v => OnlyGen u v g ∧ EntryOf u v g (wave t) (some t) [] ∧
    (v.gen g).line = q.line ++ [⟨t, false, some (u.graph g.graph).nextId, none⟩]) ∧
  (∀ mk, (mk, op) ∈ ([(.chst, 0x09), (.chamo, 0x0A)] : List ((GenAt → Instr) × Nat)) → q.part.first = some idx → (∀ d, q.fmt ≠ .sd d) → t.kind = 0 → inside idx t.valid 15 →
    go (mk g) fun v => OnlyGen u v g ∧ EntryOf u v g (wave idx) (some idx) [t] ∧ (v.gen g).part.first = none ∧
      (v.gen g).line = q.line ++ if op = 0x0A then [⟨idx, false, some (u.graph g.graph).nextId, none⟩] else []) ∧
  (op = 0x0B → t.kind = 0 → t.valid 15 = true → go (.mnop g) fun v => OnlyGen u v g ∧ EntryOf u v g (wave t) none [] ∧ (v.gen g).line = q.line)

/-- R275-R277, R312-R314: AFFLD delivers a run 16 elements at a time, then the stop of the highest loop that has completed, and D after the nest; with TDST a run is
one transfer. AFFST stores each token's lanes where R312 places them, of an MX format under the scale token of its block, of an SD format group by group,
and takes the same stops and D. -/
def Obligations.AffineAccess : Prop := ∀ (s : State) (g : GenAt) (t : Token),
  let u := s.genDeliver g
  let q := u.gen g
  let nest := gNest q.f
  let j := q.loop.getD 0 0
  let n := if nest = 0 then 1 else q.count 0
  let els := (List.range (min 16 (n - j))).map fun i => (i, q.offset (q.loop.set 0 (j + i)))
  let m := (q.advance q.loop).2
  let last := decide (nest ≤ m + 1)
  let next : List Nat := if last then [0, 0, 0, 0, 0, 0] else (q.advance q.loop).1
  let v0 := opened u g
  let owes : Prop := nest ≠ 0 ∧ q.count (nest - 1) ≤ q.loop.getD (nest - 1) 0
  let stepped : State → Prop := fun v => if nest = 0 then (v.gen g).on = false else (v.gen g).loop = q.loop.set 0 (j + 16)
  nest ≤ 6 →
  (GenReady s g 0x01 → q.on = true → q.xfer = [] → (∀ i ∈ q.line, i.tok.kind = 0) →
    (gTdst q.f = false → owes → Turn (.affld g) s g fun v => OnlyGen u v g ∧ (v.gen g).line = q.line ++ [Item.of (bareOf 7) true] ∧ (v.gen g).on = false ∧
      (v.gen g).loop = List.replicate 6 0) ∧
    (gTdst q.f = false → ¬owes → ∀ k w, asks g els v0 = .ok (k, w) →
      (nest = 0 → Turn (.affld g) s g fun v => OnlyGen u v g ∧ (v.gen g).line = q.line ++ items q k els [bareOf 7] ∧ (v.gen g).on = false) ∧
      (nest ≠ 0 → j + 16 < n → Turn (.affld g) s g fun v => OnlyGen u v g ∧ (v.gen g).line = q.line ++ items q k els [] ∧
        (v.gen g).loop = q.loop.set 0 (j + 16) ∧ (v.gen g).on = true) ∧
      (nest ≠ 0 → n ≤ j + 16 → Turn (.affld g) s g fun v => OnlyGen u v g ∧ (v.gen g).line = q.line ++ items q k els [stop m] ∧ (v.gen g).on = true ∧
        (v.gen g).loop = if last then next.set (nest - 1) (q.count (nest - 1)) else next)) ∧
    (gTdst q.f = true → nest = 0 → ∀ bs w, gpack g ((List.range n).map fun i => q.offset (q.loop.set 0 i)) v0 = .ok (bs, w) →
      Turn (.affld g) s g fun v => OnlyGen u v g ∧ (v.gen g).xfer = [bs] ∧ (v.gen g).line = q.line ∧ (v.gen g).on = false) ∧
    (gTdst q.f = true → nest ≠ 0 → ∀ bs w,
      gpack g ((List.range n).map fun i => q.offset (q.loop.set 0 i)) (v0.updGen g fun y => { y with loop := next, on := !last }) = .ok (bs, w) →
      Turn (.affld g) s g fun v => OnlyGen u v g ∧ (v.gen g).xfer = [bs] ∧ (v.gen g).line = q.line ∧ (v.gen g).loop = next ∧ (v.gen g).on = !last)) ∧
  (GenReady s g 0x02 → Meets u g t →
    (q.on = true → j < n → t.kind = 0 → (∀ d, q.fmt ≠ .sd d) → q.fmt.isMx = false →
      ∀ w1 w, gtake g u = .ok ((), w1) → gstorePlain g els t w1 = .ok ((), w) →
      Turn (.affst g) s g fun v => OnlyGen u v g ∧ Took u v g ∧ (v.graph g.graph).pocket = (w.graph g.graph).pocket ∧ stepped v) ∧
    (∀ sc, q.on = true → j < n → t.kind = 0 → q.fmt.isMx = true → q.part.first = none → q.scq.toks.head? = some sc → sc.err = false → sc.kind = 0 →
      Turn (.affst g) s g fun v => OnlyGen u v g ∧ (v.gen g).inq = q.inq ∧ (v.gen g).scq.toks = q.scq.toks.tail ∧ (v.gen g).part.first = some sc ∧
        (v.gen g).part.n = 0) ∧
    (∀ sc, q.on = true → j < n → t.kind = 0 → q.fmt.isMx = true → q.part.first = some sc →
      ∀ w1 w, gtake g u = .ok ((), w1) → gstoreMx g els (sc.lane 0) (q.part.n = 0) t w1 = .ok ((), w) →
      Turn (.affst g) s g fun v => OnlyGen u v g ∧ Took u v g ∧ (v.graph g.graph).pocket = (w.graph g.graph).pocket ∧ stepped v ∧
        (v.gen g).part.first = (if q.part.n = 1 then none else some sc)) ∧
    (∀ d, q.on = true → j < n → q.fmt = .sd d → t.kind = 0 → Turn (.affst g) s g fun v => OnlyGen u v g ∧ Took u v g ∧
      (q.part.first = none → (v.gen g).part.first = some t ∧ (v.gen g).part.toks = []) ∧
      (∀ hdr, q.part.first = some hdr → (v.gen g).part.first = some hdr ∧ (v.gen g).part.toks = q.part.toks ++ [t]) ∧
      (v.graph g.graph).pocket = (u.graph g.graph).pocket) ∧
    (∀ d hdr, q.on = true → j < n → q.fmt = .sd d → t.kind = 1 → q.part.first = some hdr →
      let blk := ((els.headD (0, 0)).2 / 32).toNat + 1
      let scale := if q.part.n = blk then q.part.acc.headD 0 else hdr.lane 0
      ∀ w1 w, gtake g u = .ok ((), w1) → gstoreSd g d els hdr q.part.toks scale w1 = .ok ((), w) →
      Turn (.affst g) s g fun v => OnlyGen u v g ∧ Took u v g ∧ (v.graph g.graph).pocket = (w.graph g.graph).pocket ∧ stepped v ∧
        (v.gen g).part.first = none ∧ (v.gen g).part.acc = [scale]) ∧
    (q.on = true → n ≤ j → q.fmt.isMx = false → t.kind = Fin.ofNat 8 (m + 1) → m ≤ 5 →
      Turn (.affst g) s g fun v => OnlyGen u v g ∧ Took u v g ∧ (v.gen g).loop = next ∧ (v.gen g).on = !last ∧
        (v.graph g.graph).pocket = (u.graph g.graph).pocket) ∧
    (q.on = false → q.fmt.isMx = false → t.kind = 7 → Turn (.affst g) s g fun v => OnlyGen u v g ∧ Took u v g ∧ (v.gen g).on = true))

/-- R316-R318: ROWG delivers the rows that its valid lanes name, in lane order, each followed by S0; BAGSUM adds the rows of a bag element by element and, at the stop,
delivers the sums, or the means, and the stop; an empty bag gives zeros, and a token without a valid lane adds nothing. A row that the hot-row map holds is read from
its copy; which of the two copies is chosen at the first index and at each invocation marker. -/
def Obligations.RowsAndBags : Prop := ∀ (s : State) (g : GenAt) (t : Token) (lane j : Nat),
  let u := s.genDeliver g
  let q := u.gen g
  let cnt := q.count 0
  let rows : Prop := ∀ i < 16, t.valid i = true → q.rowOk (int t i) = true
  let mean := (immOf q.f).getLsbD 0
  let out : Nat → Lane := fun i =>
    if q.part.n = 0 then 0 else if mean then Machine.fmul (q.part.acc.getD i 0) (divDy ⟨1, 0⟩ ⟨q.part.n, 0⟩ .rne) .rne else q.part.acc.getD i 0
  let row : List Token := (List.range ((cnt + 15) / 16)).map fun k =>
    ⟨0, false, false, BitVec.ofNat 16 (2 ^ min 16 (cnt - 16 * k) - 1), (List.range 16).map fun i => if i < min 16 (cnt - 16 * k) then out (16 * k + i) else 0⟩
  (GenReady s g 0x05 → Meets u g t → t.kind = 0 → rows → q.part.n = lane * 2 ^ 32 + j → j < 2 ^ 32 →
    ((∀ i < 16, lane ≤ i → t.valid i = false) → Turn (.rowg g) s g fun v => OnlyGen u v g ∧ Took u v g ∧ (v.gen g).part.n = 0 ∧ (v.gen g).line = q.line) ∧
    (∀ i < 16, lane ≤ i → t.valid i = true → (∀ k < i, lane ≤ k → t.valid k = false) →
      (gTdst q.f = false →
        let els := (List.range (min 16 (cnt - j))).map fun k => (k, q.rowOff (int t i) (j + k))
        ∀ k w, asks g els (opened u g) = .ok (k, w) → Turn (.rowg g) s g fun v => OnlyGen u v g ∧ (v.gen g).inq = q.inq ∧
          (j + 16 < cnt → (v.gen g).line = q.line ++ items q k els [] ∧ (v.gen g).part.n = i * 2 ^ 32 + j + 16) ∧
          (cnt ≤ j + 16 → (v.gen g).line = q.line ++ items q k els [stop 0] ∧ (v.gen g).part.n = (i + 1) * 2 ^ 32)) ∧
      (gTdst q.f = true → q.xfer = [] → ∀ bs w, gpack g ((List.range cnt).map (q.rowOff (int t i))) (opened u g) = .ok (bs, w) →
        Turn (.rowg g) s g fun v => OnlyGen u v g ∧ (v.gen g).inq = q.inq ∧ (v.gen g).xfer = [bs] ∧ (v.gen g).part.n = (i + 1) * 2 ^ 32))) ∧
  (GenReady s g 0x06 → Meets u g t →
    (∀ w0 w cp, t.kind = 0 → HotChosen u w0 g → Copies w0 g t cp → (∀ i < 16, t.valid i = true → q.bagRowOk (int t i) (cp i) = true) →
      (((List.range 16).filter t.valid).forM fun i => do
        let r ← growLanes g (int t i) (cp i)
        gpart g fun p => { p with acc := r.zipIdx.map (fun (v : Lane × Nat) => Machine.fadd (p.acc.getD v.2 0) v.1 .rne), n := p.n + 1, seen := true })
          (opened w0 g) = .ok ((), w) →
      Turn (.bagsum g) s g fun v => OnlyGen u v g ∧ Took u v g ∧ (v.gen g).part = (w.gen g).part ∧ (v.gen g).hot = (w0.gen g).hot ∧ (v.gen g).line = q.line) ∧
    (t.kind = 0 → t.mask = 0 → Turn (.bagsum g) s g fun v => OnlyGen u v g ∧ Took u v g ∧ (v.gen g).part = q.part ∧ (v.gen g).line = q.line) ∧
    (∀ i r w, t.kind = 0 → rows → i < 16 → t.mask = BitVec.ofNat 16 (2 ^ i) → q.hotEn = false → growLanes g (int t i) none (opened u g) = .ok (r, w) →
      Turn (.bagsum g) s g fun v => OnlyGen u v g ∧ Took u v g ∧ (v.gen g).part.n = q.part.n + 1 ∧ (v.gen g).part.seen = true ∧ (v.gen g).line = q.line ∧
        ∀ k < r.length, (v.gen g).part.acc.getD k 0 = Machine.fadd (q.part.acc.getD k 0) (r.getD k 0) .rne) ∧
    (t.kind ≠ 0 → Turn (.bagsum g) s g fun v => OnlyGen u v g ∧ Took u v g ∧ ((t.kind ≠ 7 ∨ q.part.seen = true) → (v.gen g).part.n = 0) ∧
      (v.gen g).line = q.line ++ (if t.kind ≠ 7 ∨ q.part.seen = true then row.map fun k => ⟨k, true, none, none⟩ else []) ++
        (if t.kind = 7 ∧ q.part.seen = true then [⟨stop 0, true, none, none⟩] else []) ++ [⟨bareOf t.kind, true, none, none⟩] ∧
      (∀ w, ghotCopy g u = .ok ((), w) → (v.gen g).hot = if closesAt t (u.graph g.graph).inv then (w.gen g).hot else q.hot)))

/-- R320, R321, R405: REQ performs every store that the pockets hold, and only when none is left, for a frame may wait for its ring, sends the fibre as one request: to the engine
of the die, or as a message to an endpoint of its core; a bare S0, or a fibre of another shape, is 0x01;
EGRESS gathers a header and the rows of a frame and puts the frame into the pocket whole, at the place of its number since the section
started. -/
def Obligations.RequestsAndFrames : Prop := ∀ (s : State) (g : GenAt) (t r : Token),
  let u := s.genDeliver g
  let q := u.gen g
  let w := egWidth q.p3
  let per := (w + 15) / 16
  let closed := q.part.acc.length
  let here := q.part.toks.length - closed * per
  let total := 3 * egHeight q.p3 / 2
  let rel := released (opened u g) g
  let shapeless : Nat → Prop := fun op => Gives (if op = 0x0C then .req g else .egress g) s fun w => GenErrs u w g (1 + 256 * (t.kind.val + 512))
  let e := BitVec.ofNat 6 (q.f.toNat / 16 % 64)
  let m : BitVec 63 := (((r.lane 1).setWidth 31).setWidth 63 <<< 32) ||| ((r.lane 0).setWidth 32).setWidth 63
  (GenReady s g 0x0C → Meets u g t →
    (q.part.first = none → t.kind = 1 → shapeless 0x0C) ∧
    (∀ r, q.part.first = some r → t.kind ≠ 1 → shapeless 0x0C) ∧
    (q.part.first = none → t.kind = 0 → t.valid 0 = true → t.valid 1 = true →
      Turn (.req g) s g fun v => OnlyGen u v g ∧ Took u v g ∧ (v.gen g).part.first = some t) ∧
    (q.part.first = some r → t.kind = 1 → (q.f.toNat % 16 = 1 → (u.core q.core).run ≠ .stopped ∧ ((u.core q.core).queue e).length < 16) →
      (rel.graph g.graph).pocket ≠ [] → Turn (.req g) s g fun v => (v.gen g).inq = q.inq ∧ (v.gen g).part.first = some r ∧ v.mem = rel.mem ∧
        (v.gen g).reqs = (rel.gen g).reqs ∧ v.cores = rel.cores) ∧
    (q.part.first = some r → t.kind = 1 → q.f.toNat % 16 = 1 → (u.core q.core).run ≠ .stopped → 16 ≤ ((u.core q.core).queue e).length →
      Turn (.req g) s g fun v => OnlyGen u v g ∧ (v.gen g).inq = q.inq ∧ (v.gen g).part.first = some r) ∧
    (q.part.first = some r → t.kind = 1 → q.f.toNat % 16 ≠ 1 → (rel.graph g.graph).pocket = [] → Turn (.req g) s g fun v => Took u v g ∧
      (v.gen g).part.first = none ∧ (v.gen g).reqs = (rel.gen g).reqs ++ [r] ∧
      (v.gen g).line = (rel.gen g).line ++ [⟨r, false, some (rel.graph g.graph).nextId, none⟩] ∧ v.mem = rel.mem) ∧
    (q.part.first = some r → t.kind = 1 → q.f.toNat % 16 = 1 → (u.core q.core).run ≠ .stopped → ((u.core q.core).queue e).length < 16 →
      (rel.graph g.graph).pocket = [] → Turn (.req g) s g fun v => Took u v g ∧ (v.gen g).part.first = none ∧ v.mem = rel.mem ∧
        ((v.core q.core).queue e).map (·.2) = ((u.core q.core).queue e).map (·.2) ++ [m] ∧
        (v.gen g).line = (rel.gen g).line ++ [⟨⟨0, false, false, 1, List.replicate 16 0⟩, false, none, none⟩, ⟨stop 0, true, none, none⟩])) ∧
  (GenReady s g 0x0D → Meets u g t →
    (q.part.first = none → t.kind ≠ 0 → t.kind ≠ 7 → shapeless 0x0D) ∧
    (q.part.first = none → t.kind = 0 → t.valid 0 = true → t.valid 1 = true → t.valid 2 = true →
      Turn (.egress g) s g fun v => OnlyGen u v g ∧ Took u v g ∧ (v.gen g).part.first = some t ∧ (v.gen g).part.toks = [] ∧ (v.gen g).part.acc = []) ∧
    (q.part.first = some r → t.kind = 0 → closed < total → here < per → t.mask = BitVec.ofNat 16 (2 ^ min 16 (w - 16 * here) - 1) →
      Turn (.egress g) s g fun v => OnlyGen u v g ∧ Took u v g ∧ (v.gen g).part.toks = q.part.toks ++ [t]) ∧
    (q.part.first = some r → t.kind = 1 → here = per → closed < total →
      Turn (.egress g) s g fun v => OnlyGen u v g ∧ Took u v g ∧ (v.gen g).part.acc.length = closed + 1) ∧
    (q.part.first = some r → t.kind = 2 → (closed = total ∧ here = 0) ∨ (closed + 1 = total ∧ here = per) →
      ∀ bs w1 w2, gframeBytes g q.part.toks (opened u g) = .ok (bs, w1) →
        gput g (gBase q.f + q.frameNo * egStride q.p3) bs (.frame (((r.lane 0).setWidth 32).toNat + 2 ^ 32 * ((r.lane 1).setWidth 32).toNat)
          ((r.lane 2).setWidth 32).toNat w (egHeight q.p3)) w1 = .ok ((), w2) →
        Turn (.egress g) s g fun v => OnlyGen u v g ∧ Took u v g ∧ (v.graph g.graph).pocket = (w2.graph g.graph).pocket ∧
          (v.gen g).part.first = none ∧ (v.gen g).frameNo = q.frameNo + 1))

/-- R346-R349: CAMLD loads a camera register from memory or saves it, the answer of a save waiting for its store; CAMG and CAMR answer a coordinate with a header, its payload and S0, and one outside the image with the status 2 and the store's
fill; CAMS gathers a coordinate and its payload and issues the update, which counts as clipped where it lies outside. -/
def Obligations.CameraGenerators : Prop := ∀ (s : State) (g : GenAt) (t coord : Token),
  let u := s.genDeliver g
  let q := u.gen g
  let x := u.graph g.graph
  let k := int t 0
  let a := (gBase q.f + 128 * k.toNat)
  let n := q.f.toNat % 16
  let answer : List Token := [⟨0, false, false, 1, (List.range 16).map fun i => if i = 0 then BitVec.ofNat 40 n else 0⟩]
  let d : StoreD := x.storeOf q.cam
  let good := camOk x.stores.length q.cam = true
  let clean : Nat → Prop := fun m => ∀ i < m, t.valid i = true ∧ readW40 (t.lane i) ≠ .nan
  (GenReady s g 0x10 → Meets u g t → t.kind = 0 → t.valid 0 = true → 0 ≤ k → k < 2 ^ 20 → a + 128 ≤ 2 ^ 52 →
    (q.f.getLsbD 4 = true → ∀ w, gput g a (x.camera n) (.save x.nextId) (opened u g) = .ok ((), w) →
      Turn (.camld g) s g fun v => OnlyGen u v g ∧ Took u v g ∧ (v.gen g).line = q.line ++ answer.map (fun k => ⟨k, false, some x.nextId, none⟩) ∧
        (v.graph g.graph).nextId = x.nextId + 1 ∧ (v.graph g.graph).pocket = (w.graph g.graph).pocket ∧
        (v.graph g.graph).camera n = (if q.f.getLsbD 5 then (x.camera n).take 112 ++ List.replicate 4 0 ++ (x.camera n).drop 116 else x.camera n)) ∧
    (q.f.getLsbD 4 = false → ∀ img w, gread g a 128 (opened u g) = .ok (img, w) →
      (camOk x.stores.length img = true → Turn (.camld g) s g fun v => OnlyGen u v g ∧ Took u v g ∧ Queued u v g answer ∧ (v.graph g.graph).camera n = img ∧
        ∀ m, m ≠ n → (v.graph g.graph).camera m = x.camera m) ∧
      (camOk x.stores.length img = false → Gives (.camld g) s fun w1 => GenErrs u w1 g 0x77))) ∧
  (GenReady s g 0x11 → Meets u g t → t.kind = 0 → clean 3 → good →
    (gClass q.f ≠ 2 → ∀ ts w, gcamgView g q.cam d (q.f.getLsbD 4) (t.lane 0) (t.lane 1) (t.lane 2) (opened u g) = .ok (ts, w) → (∀ k ∈ ts, k.kind = 0) →
      Turn (.camg g) s g fun v => OnlyGen u v g ∧ Took u v g ∧ Queued u v g (ts ++ [stop 0])) ∧
    (gClass q.f = 2 → t.valid 15 = true → Turn (.camg g) s g fun v => OnlyGen u v g ∧ Took u v g ∧ EntryOf u v g ((t.lane 15).toNat % 65536) (some t) [] ∧
      (v.gen g).line = q.line ++ [⟨t, false, some x.nextId, none⟩])) ∧
  (GenReady s g 0x12 → Meets u g t → t.kind = 0 → clean 2 → good →
    ∀ ts w, gcamrView g q.cam d (t.lane 0) (t.lane 1) (opened u g) = .ok (ts, w) → (∀ k ∈ ts, k.kind = 0) →
      Turn (.camr g) s g fun v => OnlyGen u v g ∧ Took u v g ∧ Queued u v g (ts ++ [stop 0])) ∧
  (∀ w occ, inView q.cam (t.lane 0) (t.lane 1) (t.lane 2) = false → gcamgView g q.cam d occ (t.lane 0) (t.lane 1) (t.lane 2) w = .ok (camMiss d 2, w)) ∧
  (GenReady s g 0x13 → Meets u g t → good →
    (q.part.first = none → t.kind = 0 → clean 4 → (gClass q.f = 2 → t.valid 15 = true) →
      Turn (.cams g) s g fun v => OnlyGen u v g ∧ Took u v g ∧ (v.gen g).part.first = some t ∧ (v.gen g).part.toks = []) ∧
    (q.part.first = some coord → t.kind = 0 → q.part.toks.length < (d.plen + 15) / 16 →
      Turn (.cams g) s g fun v => OnlyGen u v g ∧ Took u v g ∧ (v.gen g).part.toks = q.part.toks ++ [t]) ∧
    (q.part.first = some coord → t.kind ≠ 0 → t.kind ≠ 7 → (d.plen + 15) / 16 ≤ q.part.toks.length → gClass q.f ≠ 2 →
      (∀ w, gcamIssue g coord q.part.toks u = .ok ((), w) → Turn (.cams g) s g fun v => OnlyGen u v g ∧ Took u v g ∧ (v.gen g).part.first = none ∧
        (v.graph g.graph).pocket = (w.graph g.graph).pocket ∧ (v.graph g.graph).cams = (w.graph g.graph).cams) ∧
      (inView q.cam (coord.lane 0) (coord.lane 1) (coord.lane 2) = false →
        gcamIssue g coord q.part.toks u = .ok ((), u.updGraph g.graph fun y => y.clip n))))

/-- R383-R387: PLEAT reads a lattice's table and delivers its rows, item by item; a malformed table gives 0x63 with the node that decides, and one with more than 128 paths 0x64.
R389-R392: RINGPUT gathers a slot token and its items; at the fibre's end it commits: the accepted prefix of the best row and its bonus enter the ring as far as there is room, the slot's position and
last token follow, and a status token says so; TAIL and POS are written at every commit, LAST with the first token. A slot that waits for room goes on once the ring has
some; one that is free, and one still without room, change nothing. -/
def Obligations.PleatsAndRings : Prop :=
  (∀ (s : State) (g : GenAt) (t : Token) (h : Nat) (w1 : State) (vs : List Nat) (w2 : State),
  let u := s.genDeliver g
  let q := u.gen g
  let a := ((t.lane 0).setWidth 32).toNat + 2 ^ 32 * ((t.lane 1).setWidth 20).toNat
  GenReady s g 0x14 → Meets u g t → t.kind = 0 → t.valid 0 = true → t.valid 1 = true → t.valid 2 = true → a % 8 = 0 → a + 8 ≤ 2 ^ 52 →
  gnat g a 8 u = .ok (h, w1) →
  (h % 128 = 0 ∨ 64 < h % 128 ∨ h / 128 ≠ 0 → Gives (.pleat g) s fun w => GenErrs u w g (0x63 + 256 * 0xFF)) ∧
  (1 ≤ h → h ≤ 64 → a + 8 + 8 * h ≤ 2 ^ 52 → (List.range h).mapM (fun i => gnat g (a + 8 + 8 * i) 8) w1 = .ok (vs, w2) →
    (∀ c n, latticeRows vs = .inr (c, n) → Gives (.pleat g) s fun w => GenErrs u w g (c.toNat + 256 * n)) ∧
    (∀ ns rows, latticeRows vs = .inl (ns, rows) → Turn (.pleat g) s g fun v => OnlyGen u v g ∧ Took u v g ∧
      Queued u v g (rows.zipIdx.flatMap fun r => (r.1.zipIdx.map fun i => pleatItem (q.f.getLsbD 0) ns (int t 2) r.2 i.2 i.1) ++
        [stop (if r.2 + 1 = rows.length then 1 else 0)])))) ∧
  (∀ (s : State) (g : GenAt) (t slot : Token) (bs : List Byte) (e : SlotEntry),
  let u := s.genDeliver g
  let q := u.gen g
  let no := int t 0
  let a := gBase q.f + 64 * (int slot 0).toNat
  let stores : State → List (List Byte × PocketKind) := fun v =>
    ((v.graph g.graph).pocket.drop (u.graph g.graph).pocket.length).map fun p => (p.data, p.kind)
  let status : Nat → Nat → Nat → Nat → Token := fun k pos last st => ⟨0, false, false, 0x1F, (List.range 16).map fun i => match i with
    | 0 => (BitVec.ofNat 32 (int slot 0).toNat).signExtend 40 | 1 => (BitVec.ofNat 32 k).signExtend 40 | 2 => (BitVec.ofNat 32 pos).signExtend 40
    | 3 => (BitVec.ofNat 32 last).signExtend 40 | 4 => (BitVec.ofNat 32 st).signExtend 40 | _ => 0⟩
  GenReady s g 0x15 → Meets u g t →
  (q.part.first = none → t.kind = 0 → t.valid 0 = true → 0 ≤ no → no < (q.f.toNat % 8192 : Nat) → gBase q.f + 64 * no.toNat + 64 ≤ 2 ^ 52 →
    Turn (.ringput g) s g fun v => OnlyGen u v g ∧ Took u v g ∧ (v.gen g).part.first = some t ∧ (v.gen g).part.toks = []) ∧
  (q.part.first = none → t.kind = 7 → gOen q.f = true → Turn (.ringput g) s g fun v => OnlyGen u v g ∧ Took u v g ∧ Queued u v g [bareOf 7]) ∧
  (q.part.first = none → 3 ≤ t.kind.val → t.kind ≠ 7 → Turn (.ringput g) s g fun v => OnlyGen u v g ∧ Took u v g ∧ Queued u v g [stop (t.kind.val - 3)]) ∧
  (q.part.first = some slot → t.kind.val ≤ 1 → Turn (.ringput g) s g fun v => OnlyGen u v g ∧ Took u v g ∧ (v.gen g).part.toks = q.part.toks ++ [t]) ∧
  (q.part.first = some slot → 2 ≤ t.kind.val → ∀ w, gcommit g slot q.part.toks (opened u g) = .ok ((), w) →
    Turn (.ringput g) s g fun v => Took u v g ∧ (v.gen g).part.first = none ∧ (v.graph g.graph).pocket = (w.graph g.graph).pocket ∧ v.mem = u.mem ∧
      (v.gen g).line = (w.gen g).line ++ (if t.kind = 7 then [⟨bareOf 7, true, none, none⟩] else if 3 ≤ t.kind.val then [⟨stop (t.kind.val - 3), true, none, none⟩] else [])) ∧
  (∀ w, gunder (fun s => s.withOwn g) (gread g a 64) (opened u g) = .ok (bs, w) → slotEntry bs = some e → itemsOk e.pos (rowsOf q.part.toks []) = true →
    (e.st = 0 → ∃ v, gcommit g slot q.part.toks (opened u g) = .ok ((), v) ∧ Queued u v g [status 0 e.pos e.last 2] ∧
      (v.graph g.graph).pocket = (u.graph g.graph).pocket) ∧
    (∀ head w1 tail w2 v, gnat g e.ctl 4 w = .ok (head, w1) → gunder (fun s => s.withOwn g) (gnat g (e.ctl + 4) 4) w1 = .ok (tail, w2) →
      gcommit g slot q.part.toks (opened u g) = .ok ((), v) →
      let best := bestRow (rowsOf q.part.toks [])
      let room := ringFree e.logn head tail
      let k := min best.length room
      let put := (best.take k).map fun i => ((i.lane 0).setWidth 32).toNat
      let last := if 0 < k then put.getLastD 0 else e.last
      let pos := (e.pos + k) % 2 ^ 32
      (e.st = 2 → if room = 0 then stores v = [] ∧ Queued u v g [status 0 e.pos e.last 1]
        else stores v = [(leBytes 1 1, .plain)] ∧ Queued u v g [status 0 e.pos e.last 3]) ∧
      (e.st = 1 → stores v = put.map (fun n => (leBytes 4 n, .plain)) ++ [(leBytes 4 (tail + k), .release), (leBytes 4 pos, .plain)] ++
          (if 0 < k then [(leBytes 4 last, .plain)] else []) ++ (if k < best.length then [(leBytes 1 2, .plain)] else []) ∧
        Queued u v g [status k pos last (if k < best.length then 1 else 0)]))))

/-! ### Instants and queues (06, 11) -/

/-- R105, R108, R110, R111, R121: where an instant resolves, a signal is present exactly where a face or an emit latch emits it or an
EMIT record that acts names it: the statuses agree with their emitters. -/
def Obligations.InstantCoherent : Prop := ∀ (s : State) (g : GraphIx) (pres : BitVec 64),
  let x := s.graph g
  (x.currentItems.map (·.i)).Nodup → s.resolve g = .ok pres →
  ∀ n < 64, pres.getLsbD n = true ↔ ((s.facesEmit g ||| x.latch).getLsbD n = true ∨ ∃ t ∈ acting x pres 5, rfld t.r 0 6 = n)

/-- R107, R113, R114, R117, R119, R121, R124: a quiet graph without a fault resolves its instant. One that cannot be resolved holds the graph
with 0x80 or 0x81 and the undecided signals in TVAL, which the graph's home core receives. Else, where no plane waits to be swapped and no
store stands in a pocket, the instant ends: statuses and delay registers take their new values, the latches sampled are clear, and the graph
goes on or has ended. -/
def Obligations.InstantResolution : Prop := ∀ (s : State) (g : GraphIx),
  let x := s.graph g
  x.mayResolve = true →
  (∀ c m, s.resolve g = .fail c m → (c = 0x80 ∨ c = 0x81) ∧
    Gives (.instantResolve g) s fun t => (t.graph g).st = .held ∧ (t.graph g).held = some ⟨c, m, false, 0, 0⟩ ∧ t.mem = s.mem ∧
      (∃ p, (t.core (s.addressee 5 x.home)).pending = (s.core (s.addressee 5 x.home)).pending ++ [p] ∧
        p.cause = c ∧ p.imp = false ∧ p.tval = m ∧ p.record.length = 256) ∧ ∀ h, h ≠ g → t.graph h = s.graph h) ∧
  (∀ pres, s.resolve g = .ok pres → acting x pres 9 = [] → s.pendingSwaps g = [] → x.pocket = [] →
    Gives (.instantResolve g) s fun t =>
      (t.graph g).sigs = pres ∧ DelaysSet x (acting x pres 8) (t.graph g).dreg ∧ (t.graph g).latch = 0 ∧ (t.graph g).arms = 0 ∧
      ((t.graph g).st = .run ∨ (t.graph g).st = .ended) ∧
      (x.last1 = true → (t.graph g).st = .ended ∧ (t.graph g).ended = some 0) ∧
      t.mem = s.mem ∧ t.cores = s.cores ∧ ∀ h, h ≠ g → t.graph h = s.graph h)

/-- R115, R440: HEM_SWEEP reads the activity counter of every running graph. Where it stands as at the last sweep, the sweep is clean, and
the second clean one in turn with every reply arrived makes the graph quiet; with no token anywhere, in whatever plane or clone, it counts towards empty too.
R219, R222, R223, R233, R245: the distributor sees TAIL of an enabled queue; a graph of a queue that has ended counts up its completion
counter modulo 2^32, its planes and its slot become free, or, where the counter cannot be reached, core 0 of die 0 gets 0x89 with the queue; the
stall period clears every stall counter.
R224, R226, R227, R238: a round of the distributor considers the eligible head of highest effective priority, the longer eligible, then the
lower queue. A head whose record keeps its form and whose graph fits is taken: HEAD counts up, and the graph is resident with its planes LOADING.
A malformed record is taken too and gives 0x89 at core 0 of die 0. -/
def Obligations.SweepsAndQueues : Prop :=
  (∀ (s : State), s.graphIxs.Nodup →
  Gives .hemSweep s fun t => t = { s with graphs := t.graphs } ∧ ∀ g,
    let x := s.graph g
    let y := t.graph g
    let tokenless : Prop := (∀ e ∈ s.ownedPlanes g, ∀ i : Fin 16, (s.site { e with site := i }).bare = true) ∧
      (∀ c ∈ x.clone, c.split.bare = true ∧ c.order.bare = true) ∧ ∀ q ∈ x.gens, q.2.bare = true
    (x.live = false ∨ x.started = false → y = x) ∧
    (x.live = true → x.started = true →
      y = { x with swept := y.swept, clean := y.clean, bare := y.bare } ∧ y.swept = x.act ∧
      (x.act ≠ x.swept → y.clean = 0 ∧ y.bare = 0) ∧
      (x.act = x.swept → y.clean = if x.replied then min 2 (x.clean + 1) else 1) ∧
      (x.act = x.swept →
        (tokenless ∧ x.replied = true → y.bare = min 2 (x.bare + 1)) ∧ (¬(tokenless ∧ x.replied = true) → y.bare = 0)))) ∧
  (∀ (s : State) (q : BitVec 6) (g : GraphIx),
  (s.queueOn q.toNat = true → Gives (.queueTailSeen q) s fun t =>
    t.dist.seen.get 0 q.toNat = s.queueTail q.toNat ∧ t = { s with dist := t.dist } ∧
    ∀ r, r ≠ q.toNat → t.dist.seen.get 0 r = s.dist.seen.get 0 r ∧ t.dist.since.get 0 r = s.dist.since.get 0 r) ∧
  (let x := s.graph g
    ∀ n, x.queue = some n → x.st = .ended → Gives (.complIncrement g) s fun t =>
      t.graph g = { Graph.free with gen := (x.gen + 1) % 16, freed := s.dist.frees + 1 } ∧ (∀ h, h ≠ g → t.graph h = s.graph h) ∧
      (∀ e ∈ s.ownedPlanes g, t.planeOf e = .none) ∧ (x.compl = 0 → t.mem = s.mem ∧ t.cores = s.cores) ∧
      (x.compl ≠ 0 →
        (∀ pas, s.enginePas x.asid .store 2 x.compl 4 = .ok pas → (∀ p ∈ pas, p < blockBase) → s.storeRefused pas = none →
          s.unstorable pas = none → s.undeliverables pas = none → Bytes s (pas.map s.key) ((leNat (s.bytesAt pas) + 1) % 2 ^ 32) t ∧ t.cores = s.cores) ∧
        (∀ c, s.enginePas x.asid .store 2 x.compl 4 = .error c → t.mem = s.mem ∧
          (t.core (s.addressee 5 0)).pending = (s.core (s.addressee 5 0)).pending ++ [⟨0x89, true, BitVec.ofNat 64 n, []⟩]))) ∧
  (SMap.wf .empty s.sites = true → Gives .stallPeriod s fun t =>
    (∀ e, t.site e = { s.site e with stalls := [] }) ∧ t = { s with sites := t.sites })) ∧
  (∀ (s : State) (q : Nat),
  let eff : Nat → Nat → Nat := fun r v => min 7 (s.queuePrio r + v / 65536)
  let a := s.queueAt q
  let head := s.queueHead q
  let r := s.queueRecord q
  let asid : Byte := BitVec.ofNat 8 (s.queueAsid q)
  let load : List Byte → Nat → Load := fun pre n => ⟨0, launchImg r, asid, .launch q head, pre, n, []⟩
  let fresh : List Byte → Nat → Graph := fun pre n =>
    { Graph.free with live := true, asid := asid, prio := s.queuePrio q, queue := some q, compl := launchCompl r, img := launchImg r
                      loads := [load pre n] }
  s.considered = some q →
  (q < 64 ∧ ∃ w, s.eligible q = some w ∧ ∀ r < 64, ∀ v, s.eligible r = some v →
    eff r v < eff q w ∨ (eff r v = eff q w ∧ (v < w ∨ (v = w ∧ q ≤ r)))) ∧
  (∀ n pre g x, launchOk r = true → s.engineRead asid (launchImg r + 5) 1 = .ok n → 1 ≤ leNat n → leNat n ≤ 64 →
    s.engineRead asid (launchImg r + 256) (8 * leNat n) = .ok pre →
    s.queuePlace (fresh pre (leNat n)) (load pre (leNat n)).pages (s.imageAt asid (launchImg r)) = some (g, x) →
    Writable s (a + 16) 4 →
    Gives .distributorSelect s fun t =>
      t.graph g = { x with gen := (s.graph g).gen, freed := (s.graph g).freed } ∧ (∀ h, h ≠ g → t.graph h = s.graph h) ∧
      (x.queue = some q ∧ x.live = true ∧ x.st = .idle) ∧ Bytes s (keysAt s (a + 16) 4) ((head + 1) % 2 ^ 32) t ∧
      ∀ p ∈ x.pages, PlaneIs t p.2.1 p.2.2 (x.startOf p.1 % 4) .loading (some g)) ∧
  (launchOk r = false → Gives .distributorSelect s fun t =>
    t.mem = (((s.deviceWrite (a + 16) (leBytes 4 ((head + 1) % 2 ^ 32))).deviceWrite (a + 24) (leBytes 8 (0x8089 * 2 ^ 48))).deviceWrite
      (a + 32) (leBytes 4 head)).mem ∧ t.graphs = s.graphs ∧
    (t.core (s.addressee 5 0)).pending = (s.core (s.addressee 5 0)).pending ++ [⟨0x89, true, BitVec.ofNat 64 q, []⟩]))

/-! ### Loads, contexts, blocks (05, 07, 11, 25) -/

/-- R146, R148, R149, R150, R219: an image arrives header first, then 32 bytes at a time, and again from the start where its planes went
INCOMPLETE. A load whose whole image passes the checks leaves its planes SHADOW with the frames of the image in their sites; one that fails
leaves its planes EMPTY, and GWAIT's answer is the status word of the first failing check; a graph that does not run and owns no plane any more then is no
longer resident, unless this was its first load. A graph of a queue then starts. -/
def Obligations.ImageArrival : Prop := ∀ (s : State) (g : GraphIx) (p : BitVec 2) (l : Load),
  let x := s.graph g
  x.ctx ≠ .cut → x.loadAt p.toNat = some l →
  (l.img % 64 = 0 → 1 ≤ l.count → l.count ≤ 64 → (l.bytes = [] → l.next = some (0, 256)) ∧
    (256 ≤ l.bytes.length → checkHeader l.bytes = none → byteNat l.bytes 5 1 = l.count → l.bytes.length < imgSize l.bytes →
      l.next = some (l.bytes.length, min 32 (imgSize l.bytes - l.bytes.length)))) ∧
  ((∃ e ∈ s.loadPlanes g l, (s.planeOf e).st = .incomplete) → Gives (.configFrameArrive g p) s fun t =>
    (∀ e ∈ s.loadPlanes g l, (t.planeOf e).st = .loading) ∧ t.sites = s.sites ∧
    (t.graph g).loads = x.loads.map fun k => if k = l then { l with bytes := [] } else k) ∧
  ((∀ e ∈ s.loadPlanes g l, (s.planeOf e).st ≠ .incomplete) →
    (∀ o n bs, l.next = some (o, n) → s.engineRead l.asid (l.img + o) n = .ok bs → Gives (.configFrameArrive g p) s
      (GraphNow s g { x with loads := x.loads.map fun k => if k = l then { l with bytes := l.bytes ++ bs } else k })) ∧
    (l.next = none → s.loadCheck g l = none →
      (l.kind = .graph ∨ l.kind = .pages → Gives (.cfgLoadComplete g p) s fun t =>
        (∀ e ∈ s.loadPlanes g l, (t.planeOf e).st = .shadow ∧ (t.planeOf e).owner = (s.planeOf e).owner) ∧
        (t.graph g).loaded = some 0 ∧ (t.graph g).loads = x.loads.erase l ∧ (∀ h, h ≠ g → t.graph h = s.graph h) ∧
        ∀ a f b r, imgFrameList l.bytes = a ++ f :: b → frameLayout f ≠ 3 → x.place (framePage f) = some r →
          (∀ u ∈ b, x.place (framePage u) = some r → frameSite u = frameSite f → frameLayout u ≠ frameLayout f) →
          let y := t.site ⟨r.1, r.2, Fin.ofNat 16 (frameSite f), Fin.ofNat 4 l.plane⟩
          (if frameLayout f = 0 then y.comp else if frameLayout f = 1 then y.tileFr else y.switch) = some f) ∧
      (∀ q i, l.kind = .launch q i → Gives (.cfgLoadComplete g p) s fun t => (t.graph g).st = .run ∧ (t.graph g).loaded = some 0)) ∧
    (∀ c v, l.next = none → s.loadCheck g l = some (c, v) → (l.kind = .graph ∨ l.kind = .pages) → Gives (.cfgLoadComplete g p) s fun t =>
      (∀ e ∈ s.loadPlanes g l, t.planeOf e = .none) ∧ t.mem = s.mem ∧ t.cores = s.cores ∧
      (l.kind = .graph ∨ x.started = true ∨ (∃ e ∈ s.ownedPlanes g, e ∉ s.loadPlanes g l) → (t.graph g).loads = x.loads.erase l ∧
        (t.graph g).loaded = some (BitVec.ofNat 64 (2 ^ 63 + c.toNat * 2 ^ 48 + v % 2 ^ 48))) ∧
      (l.kind = .pages → x.live = true → x.started = false → x.ctx ≠ .restoring → (∀ e ∈ s.ownedPlanes g, e ∈ s.loadPlanes g l) →
        t.graph g = { Graph.free with gen := (x.gen + 1) % 16, freed := s.dist.frees + 1 })))

/-- R231, R437, R438, R439, R440, R441, R442, R443, R448: a cut is asked of a running graph that its table entry allows and a waiting context needs.
Once the graph is empty, or once its budget is spent and its replies have come, the record stands at AREA: its magic number, its type, its size, a
multiple of 64. A saved context leaves its planes EMPTY and waits.
R86, R444, R445, R447, R448, R449, R452: a CUT context takes a place on its die and loads its planes again, those that its record names; once it may be ACTIVE
there, its record gives back statuses, latches and delay registers, its sites resume with the tokens and states of the record, and it runs. A record with a word that cannot be read ends the graph. -/
def Obligations.Contexts : Prop :=
  (∀ (s : State) (g : GraphIx),
  let x := s.graph g
  let saves : Instr → Bool → Prop := fun i full => ∀ a, x.saved = some a → Gives i s fun t => ∃ v bytes,
    ((s.emptyLog g).releaseClones g).contextOf g full a.area = (v, bytes) ∧ (t.graph g).saved = some v ∧ (t.graph g).ctx = .saving ∧
    (t.graph g).cuts = x.cuts + 1 ∧ t.mem = (s.deviceWrite a.area bytes).mem ∧ v.area = a.area ∧ v.full = full ∧
    bytes.length = v.size ∧ v.size % 64 = 0 ∧ byteNat bytes 0 4 = 0xD4C1C0DE ∧ byteNat bytes 4 1 = (if full then 1 else 0) ∧
    byteNat bytes 8 4 = v.size % 2 ^ 32
  Clear x →
  (∀ a, x.st = .run → x.ctx = .running → x.frozen = false → s.cutArea g = some a → s.cutAsked g = true →
    Gives (.quantumExpiry g) s (GraphNow s g { x with ctx := .draining, cutAt := s.cycle, clean := 0, bare := 0,
                                                      saved := some ⟨a.1, 0, false, [], [], []⟩ })) ∧
  (s.cutArea g = none ∨ s.cutAsked g = false → Gives (.quantumExpiry g) s fun t => t = s) ∧
  (x.ctx = .draining → 2 ≤ x.clean → 2 ≤ x.bare → x.pocket = [] → saves (.cutSave g) (!s.allReset g)) ∧
  (x.ctx = .draining → x.cutAt + (s.core x.home).drainb.toNat * 1024 ≤ s.cycle →
    (x.frozen = false → Gives (.drainBudgetExpiry g) s (GraphNow s g { x with frozen := true })) ∧
    (x.frozen = true → x.settled = true → x.pocket = [] → saves (.drainBudgetExpiry g) true)) ∧
  (x.ctx = .draining → s.cycle < x.cutAt + (s.core x.home).drainb.toNat * 1024 → Gives (.drainBudgetExpiry g) s fun t => t = s) ∧
  (x.ctx = .saving → x.clone = [] → Gives (.contextSaved g) s fun t =>
    (∀ e ∈ s.ownedPlanes g, t.planeOf e = .none) ∧ (t.graph g).ctx = .cut ∧ (t.graph g).waits = s.cycle ∧ (t.graph g).latch = 0 ∧
    (t.graph g).arms = 0 ∧ (t.graph g).saved = x.saved ∧ t.mem = s.mem ∧ t.cores = s.cores)) ∧
  (∀ (s : State) (g : GraphIx) (v : Saved),
  let x := s.graph g
  x.live = true → x.saved = some v →
  (∀ y, x.ctx = .cut → s.placeCut g = some y → Gives (.contextRestore g) s fun t =>
    (t.graph g).ctx = .restoring ∧ (t.graph g).pages = y.pages ∧ (t.graph g).saved = some v ∧ t.mem = s.mem ∧
    (∀ h, h ≠ g → t.graph h = s.graph h) ∧
    ∀ p ∈ s.cutPlanes g v, ∀ r, y.place p.page = some r → PlaneIs t r.1 r.2 p.plane .loading (some g)) ∧
  (x.ctx = .restoring → s.heldOff g = true → Gives (.restoreComplete g) s fun t => t = s) ∧
  (x.ctx = .restoring → (∀ l ∈ x.loads, ∀ n, l.kind ≠ .restore n) → s.heldOff g = false → v.bytes = [] →
    (∀ c, s.undeliverables (addrs v.area v.size) = some c → Gives (.restoreComplete g) s fun t =>
      (t.graph g).st = .ended ∧ (t.graph g).ended = some (BitVec.ofNat 64 (2 ^ 63 + c.toNat * 2 ^ 48 + v.area % 2 ^ 48))) ∧
    (s.undeliverables (addrs v.area v.size) = none →
      let bs := s.physBytes v.area v.size
      Gives (.restoreComplete g) s fun t =>
        (t.graph g).ctx = .running ∧ (t.graph g).frozen = false ∧ (t.graph g).saved = none ∧ (t.graph g).slice = s.cycle ∧
        (t.graph g).sigs = BitVec.ofNat 64 (byteNat bs 224 8) ∧ (t.graph g).latch = x.latch ||| BitVec.ofNat 64 (byteNat bs 232 8) ∧
        (t.graph g).arms = x.arms ||| BitVec.ofNat 64 (byteNat bs 240 8) ∧ (t.graph g).cuts = byteNat bs 48 4 ∧
        (∀ n < 32, (t.graph g).dreg.get 0 n = BitVec.ofNat 40 (byteNat bs (64 + 5 * n) 5)) ∧ t.mem = s.mem ∧
        ∀ a k b r, v.sites = a ++ k :: b → x.place k.page = some r →
          (∀ u ∈ b, x.place u.page = some r → u.site % 16 = k.site % 16 → u.plane % 4 ≠ k.plane % 4) →
          let e : Elt := ⟨r.1, r.2, Fin.ofNat 16 k.site, Fin.ofNat 4 k.plane⟩
          let y := t.site e
          let z := ({ k.x with comp := (s.site e).comp, tileFr := (s.site e).tileFr, switch := (s.site e).switch }).restored (pageBlocks bs) k.page k.site k.plane
          y.comp = (s.site e).comp ∧ y.switch = (s.site e).switch ∧ y.cell = z.cell ∧ y.fibre = z.fibre ∧ y.router = z.router ∧
          y.elem = { z.elem with face := y.elem.face } ∧ y.rout = { z.rout with face := y.rout.face } ∧
          y.links = z.links ∧ y.ports = z.ports ∧ y.outs = z.outs)))

/-- R233: a clonable page whose in stream has stalled 49,152 times and that has no clone gets one where its core has a region for it: a copy of its
frames on an ACTIVE plane of its graph.
R235, R236: the block dispatcher takes a record that leaves by an unbound out stream: into in0 of the block it names where that is
resident, else into the block's entry queue in memory while that has room. BLOCK_SCHEDULE lets the records of the ACTIVE block in, oldest first; with
none, it loads the block whose queue is longest; a graph that has no record left ends with an instant that starts no section. -/
def Obligations.ClonesAndBlocks : Prop :=
  (∀ (s : State) (g : GraphIx) (page : BitVec 6) (a : Elt) (r : Fin 16) (p : Fin 4),
  let n := page.toNat
  (s.cloneDue g n = true → (∃ e i, s.cuffOf g n = some e ∧ ((s.graph g).portsOf n 0).head? = some i ∧ 49152 ≤ (s.site e).stalls.get 0 i) ∧
    (∃ t ∈ (s.graph g).table, t.page = n ∧ t.clon = true) ∧ ∀ c ∈ (s.graph g).clone, c.page ≠ n) ∧
  (s.cloneDue g n = true → s.cuffOf g n = some a → s.cloneSpot a.core = some (r, p.val) → Gives (.pageClone g page) s fun t =>
    (t.graph g).clone = (s.graph g).clone ++ [⟨n, a.core, r, p.val, false, .empty, .empty, false⟩] ∧
    PlaneIs t a.core r p.val .active (some g) ∧ t.mem = s.mem ∧ t.cores = s.cores ∧
    ∀ i : Fin 16, (t.site ⟨a.core, r, i, p⟩).comp = (s.site { a with site := i }).comp ∧
      (t.site ⟨a.core, r, i, p⟩).tileFr = (s.site { a with site := i }).tileFr ∧
      (t.site ⟨a.core, r, i, p⟩).switch = (s.site { a with site := i }).switch)) ∧
  (∀ (s : State) (g : GraphIx) (page : BitVec 6) (port : BitVec 2) (e : Elt) (k : Token),
  let x := s.graph g
  let b := (k.lane 15).toNat % 256
  let out := s.cuffPop e (8 + port.toNat)
  (s.dispatches g page.toNat port.toNat = some e → s.cuffHead e (8 + port.toNat) = some k → k.kind = 0 → k.err = false → b < x.nblk →
    (∀ d, s.blockPlane g b = some d → s.retOf (.cuff d 0) = true → Gives (.blockDispatch g page port) s fun t =>
      (stageAt (t.site d).cuffs 0).toks = (stageAt (s.site d).cuffs 0).toks ++ [k] ∧
      (stageAt (t.site e).cuffs (8 + port.toNat)).toks = (stageAt (s.site e).cuffs (8 + port.toNat)).toks.tail ∧ t.mem = s.mem) ∧
    (∀ img qb lg u v, s.blockPlane g b = none → s.blockEntry g b = some (img, qb, lg) → x.waiting b < 2 ^ lg →
      out.engineWrite x.asid (qb + 96 * ((x.blockQ b).tail % 2 ^ lg)) (recordBytes k) = some u →
      u.countBlock g b (fun q => { q with tail := q.tail + 1 }) = some v → Gives (.blockDispatch g page port) s fun t =>
        t = v ∧ ((t.graph g).blockQ b).tail = (x.blockQ b).tail + 1 ∧ ((t.graph g).blockQ b).head = (x.blockQ b).head ∧
        (stageAt (t.site e).cuffs (8 + port.toNat)).toks = (stageAt (s.site e).cuffs (8 + port.toNat)).toks.tail) ∧
    (∀ img qb lg, s.blockPlane g b = none → s.blockEntry g b = some (img, qb, lg) → 2 ^ lg ≤ x.waiting b →
      Gives (.blockDispatch g page port) s fun t => t = s)) ∧
  (recordToken (recordBytes k)).mask = k.mask ∧ (∀ i < 16, (recordToken (recordBytes k)).lane i = k.lane i) ∧
  (x.nblk ≠ 0 → x.sitesRun = true →
    (∀ n d img qb lg bs v, s.feedable g = some (n, d) → s.blockEntry g n = some (img, qb, lg) → s.retOf (.cuff d 0) = true →
      s.engineRead x.asid (qb + 96 * ((x.blockQ n).head % 2 ^ lg)) 96 = .ok bs →
      (s.arrive (.cuff d 0) (recordToken bs)).countBlock g n (fun q => { q with head := q.head + 1 }) = some v →
      Gives (.blockSchedule g) s fun t => t = v ∧ ((t.graph g).blockQ n).head = (x.blockQ n).head + 1 ∧
        (stageAt (t.site d).cuffs 0).toks = (stageAt (s.site d).cuffs 0).toks ++ [recordToken bs]) ∧
    (s.feedable g = none → x.quiet = true → s.streamsEmpty g = true → x.loads = [] →
      (∀ n p img qb lg, s.loadable g = some n → s.idlePlane g = some p → s.blockEntry g n = some (img, qb, lg) →
        (∀ m < x.nblk, s.blockPlane g m = none → (x.blockQ m).bad = false → x.waiting m ≤ x.waiting n) ∧
        Gives (.blockSchedule g) s fun t => ∃ l, (t.graph g).loads = [l] ∧ l.kind = .block n ∧ l.img = img ∧ l.plane = p ∧
          ∀ m ∈ l.pages, ∀ r, x.place m = some r → PlaneIs t r.1 r.2 (p % 4) .loading (some g)) ∧
      (s.loadable g = none → Gives (.blockSchedule g) s fun t => t = s))) ∧
  (∀ pres, x.mayResolve = true → s.resolve g = .ok pres → acting x pres 4 = [] → x.arms = 0 → acting x pres 9 = [] → s.pendingSwaps g = [] → x.pocket = [] →
    s.recordsDone g = true → Gives (.instantResolve g) s fun t => (t.graph g).st = .ended ∧ (t.graph g).ended = some 0) ∧
  (s.recordsDone g = true → x.nblk ≠ 0 ∧ (∀ m < x.nblk, x.waiting m = 0) ∧ s.streamsEmpty g = true))

/-! ### Chains, replies, faults, collectives (12, 14, 16, 19, 23) -/

/-- R284, R285: an entry that reaches the ordering buffer is held, or raises 0x42 where the buffer is full and 0x43 where its wave is past or it stands
there already. The first held entry that can be released is performed and the chain goes on: to the next wave after an entry without successor,
else to that successor. A chain that holds entries and has released nothing for 2^20 cycles raises 0x41 and stops.
R248, R249, R250, R253, R263, R264, R314: the reply of a generator's oldest request arrives; a run enters the tile's stage at its producer's pointer,
padded with zero to 64 bytes, and leaves it FULL; a walk for a core puts the leaf into its TLB; stage tokens reach their element when due.
R165, R166, R406: a skip request whose parity is that of the group its element emits makes the element skip; one of another parity is dropped. -/
def Obligations.ChainsAndTransfers : Prop :=
  (∀ (s : State) (g : GraphIx) (chain : BitVec 6) (e : Entry),
  let c := chain.toNat
  let x := s.graph g
  let k := x.chain c
  let at_ : GenAt := ⟨g, Fin.ofNat 256 e.gen⟩
  let late : Prop := 2 ^ 15 ≤ (e.wave + 2 ^ 16 - k.cur) % 2 ^ 16 ∨ (∃ h ∈ k.held, h.wave = e.wave ∧ h.seq = e.seq) ∨ (e.wave = k.cur ∧ e.seq ∈ k.done)
  let raises : Byte → State → Prop := fun cause t => (∃ i, (t.graph g).raised = x.raised ++ [i] ∧ i.cause = cause ∧ i.chain = some (c, e.wave, e.seq) ∧
    i.tval = BitVec.ofNat 64 (c + 2 ^ 6 * e.wave + 2 ^ 22 * e.seq)) ∧ ((t.graph g).chain c).stuck = true ∧ t.mem = s.mem
  x.chainsRun = true →
  (k.way = [e] →
    (k.held.length < 64 → s.sliceHeld g c < 1024 → ¬late → Gives (.chainEntryArrive g chain) s fun t =>
      ((t.graph g).chain c).held = k.held ++ [e] ∧ ((t.graph g).chain c).way = [] ∧ (t.graph g).act = x.act + 1 ∧ (t.graph g).raised = x.raised ∧
      t = { s with graphs := t.graphs } ∧ ∀ h, h ≠ g → t.graph h = s.graph h) ∧
    (64 ≤ k.held.length ∨ 1024 ≤ s.sliceHeld g c → Gives (.chainEntryArrive g chain) s (raises 0x42)) ∧
    (k.held.length < 64 → s.sliceHeld g c < 1024 → late → Gives (.chainEntryArrive g chain) s (raises 0x43))) ∧
  (∀ h1 h2, k.held = h1 ++ e :: h2 → k.canRelease e = true → (∀ h ∈ h1, k.canRelease h = false) →
    (e.wave = k.cur ∧ k.stuck = false ∧ (k.last = none → e.pred = 0) ∧
      ∀ q n, k.last = some (q, n) → e.pred ≠ 0 ∧ (e.pred = 0xFFF ∨ e.pred = q) ∧ (n = e.seq ∨ n = 0xFFF)) ∧
    (∀ u, gperformChained at_ c e s = .ok ((), u) → Turn (.chainRelease g chain) s at_ fun v =>
      (v.graph g).chain c = (((u.graph g).chain c).performed e s.cycle) ∧ (v.graph g).act = (u.graph g).act + 1 ∧ v = { u with graphs := v.graphs } ∧
      (∀ h, h ≠ g → v.graph h = u.graph h) ∧ (e.succ = 0 → ((v.graph g).chain c).cur = (((u.graph g).chain c).cur + 1) % 2 ^ 16 ∧
        ((v.graph g).chain c).last = none) ∧ (e.succ ≠ 0 → ((v.graph g).chain c).last = some (e.seq, e.succ)) ∧
      ((v.graph g).chain c).held = ((u.graph g).chain c).held.erase e) ∧
    (e.idx = none → gperformChained at_ c e s = .ok ((), s)) ∧
    (∀ cause va, gperformChained at_ c e s = .error (.fault cause va) → Gives (.chainRelease g chain) s fun t =>
      ∃ i, (t.graph g).raised = x.raised ++ [i] ∧ i.cause = cause ∧ i.addr = va ∧ i.chain = some (c, e.wave, e.seq))) ∧
  (k.oldest = some e → k.stuck = false → k.since + 2 ^ 20 ≤ s.cycle → Gives (.chgapTimeout g chain) s (raises 0x41)) ∧
  (s.cycle < k.since + 2 ^ 20 → Gives (.chgapTimeout g chain) s fun t => t = s)) ∧
  (∀ (s : State) (g : GenAt) (e : Elt),
  let x := s.graph g.graph
  let q := s.gen g
  (∀ a k b, q.line = a ++ ⟨k, false, none, none⟩ :: b → (∀ i ∈ a, i.ready = true ∨ i.wait ≠ none ∨ i.owed ≠ none) → Gives (.memoryReply g) s fun t =>
    (t.gen g).line = a ++ ⟨k, true, none, none⟩ :: b ∧ (t.graph g.graph).act = x.act + 1 ∧ t = { s with graphs := t.graphs } ∧
    ∀ h, h ≠ g.graph → t.graph h = s.graph h) ∧
  (∀ bs rest f, q.xfer = bs :: rest → x.place (gTpage q.f) = some (e.core, e.region) → s.genTilePlane g.graph q (gTpage q.f) = some e.plane →
    e.site = Fin.ofNat 16 (gTsite q.f) → (s.site e).tileFr = some f → x.dataRuns = true → (s.site e).tile.status (s.site e).tile.pp = 0 →
    tileCen f = false →
    let o := stageOff f (s.site e).tile.pp
    Gives (.tileTransfer g) s fun t =>
      (t.gen g).xfer = rest ∧ (t.site e).tile.status (s.site e).tile.pp = 0x80 ∧ (t.site e).tile.pp = ((s.site e).tile.pp + 1) % max (tileDepth f) 1 ∧
      (∀ i < tileBuf f, tileByte (t.tileBytes e) (o + i) = if i < bs.length then bs.getD i 0 else if i < (bs.length + 63) / 64 * 64 then 0
        else tileByte (s.tileBytes e) (o + i)) ∧
      (∀ a, (a < o ∨ o + tileBuf f ≤ a) → tileByte (t.tileBytes e) a = tileByte (s.tileBytes e) a) ∧
      ((bs.length + 63) / 64 * 64 ≤ tileBuf f → (t.graph g.graph).raised = x.raised) ∧
      (tileBuf f < (bs.length + 63) / 64 * 64 → ∃ i, (t.graph g.graph).raised = x.raised ++ [i] ∧ i.cause = 0x2E) ∧ t.mem = s.mem) ∧
  (∀ c asid va kind lvl p, s.walk asid va.toNat = .leaf lvl p → Gives (.pageWalk c asid va kind) s fun t =>
    t.core c = (s.core c).cache kind (mkTlb asid va.toNat lvl p) ∧ (∀ d, d ≠ c → t.core d = s.core d) ∧ t = { s with cores := t.cores }) ∧
  (∀ c asid va kind f, s.walk asid va.toNat = .fault f → Gives (.pageWalk c asid va kind) s fun t => t = s) ∧
  (∀ h, s.actingFor e = some h → (∃ p ∈ (s.site e).stage, p.1 ≤ s.cycle) → Gives (.stageToken e) s fun t =>
    (t.site e).stage = (s.site e).stage.filter (fun p => s.cycle < p.1) ∧
    (t.graph h).act = (s.graph h).act + ((s.site e).stage.filter fun p => p.1 ≤ s.cycle).length ∧ (∀ u, u ≠ e → t.site u = s.site u) ∧ t.mem = s.mem)) ∧
  (∀ (s : State) (e : Elt) (g : GraphIx) (par : Bool) (rest : List Bool),
  s.actingFor e = some g → (s.site e).elem.asked = par :: rest → (s.site e).rout.asked = [] → (s.site e).skipPorts false ≠ [] →
  ((s.site e).elem.parity = par → Gives (.skipRequest e) s fun t =>
    (t.site e).elem.skip = true ∧ (s.graph g).act < (t.graph g).act ∧ t.mem = s.mem) ∧
  ((s.site e).elem.parity ≠ par → Gives (.skipRequest e) s fun t => t.sites = (s.setSite e { s.site e with elem := { (s.site e).elem with asked := rest } }).sites ∧
    (t.graph g).act = (s.graph g).act ∧ t = { s with sites := t.sites, graphs := t.graphs } ∧ ∀ h, h ≠ g → t.graph h = s.graph h))

/-- R402, R403, R407, R408, R411, R413, R435: the faults raised in a graph are noted, its loads go INCOMPLETE, a cut in progress is withdrawn; at quiet the graph
holds on the first of them, its home core gets it with a record of 256 bytes, and no token of it is left in a link or port. Between, pockets drain the windows that
have ended, unless a fault stands. A store that is refused at its drain, or whose word in the pocket is uncorrectable, is discarded and raises its cause, imprecise;
where the log of the windows to replay has an uncorrectable word, the graph holds with 0xB0, imprecise. -/
def Obligations.GraphFaults : Prop := ∀ (s : State) (g : GraphIx),
  let x := s.graph g
  let unspoiled : Prop := ∀ e ∈ x.logged, e.spoiled = false
  (x.raised ≠ [] → Gives (.elementFault g) s fun t =>
    (t.graph g).noted = x.noted ++ x.raised ∧ (t.graph g).raised = [] ∧ (t.graph g).clean = 0 ∧ (t.graph g).bare = 0 ∧
    (x.ctx = .draining ∨ x.ctx = .saving → (t.graph g).ctx = .running ∧ (t.graph g).frozen = false) ∧
    (∀ p ∈ x.pages, ∀ n : Fin 4, ((s.region p.2.1 p.2.2).plane n.val).st = .loading → ((t.region p.2.1 p.2.2).plane n.val).st = .incomplete) ∧
    t.mem = s.mem ∧ t.cores = s.cores ∧ (x.ctx ≠ .draining → x.ctx ≠ .saving → t.sites = s.sites)) ∧
  (∀ f, x.live = true → x.noted = [f] → x.raised = [] → 2 ≤ x.clean → x.pocket = [] → x.dead = [] → unspoiled → Gives (.replay g) s fun t =>
    (t.graph g).st = .held ∧ (t.graph g).held = some ⟨f.cause, f.tval, f.imp, if f.imp then x.floor else min x.floor f.window, f.link⟩ ∧ (t.graph g).noted = [] ∧
    (∃ p, (t.core (s.addressee 5 x.home)).pending = (s.core (s.addressee 5 x.home)).pending ++ [p] ∧ p.cause = f.cause ∧ p.imp = f.imp ∧
      p.tval = f.tval ∧ p.record.length = 256 ∧ p.record.getD 0 0 = f.cause) ∧
    (∀ e ∈ s.activeElts g, (t.site e).links = [] ∧ (t.site e).ports = [] ∧ (t.site e).outs = []) ∧ t.mem = s.mem) ∧
  (∀ a b, x.live = true → x.noted = [a, b] → x.raised = [] → 2 ≤ x.clean → x.pocket = [] → x.dead = [] → unspoiled → a.imp = false → b.imp = false →
    b.window = a.window → b.order < a.order → Gives (.replay g) s fun t => (t.graph g).held.map (·.cause) = some b.cause) ∧
  (∀ f, x.live = true → x.noted = [f] → x.raised = [] → 2 ≤ x.clean → x.pocket = [] → f.imp = false → f.window ∈ x.dead → Gives (.replay g) s fun t =>
    (t.graph g).held.map (·.cause) = some 0x30 ∧ (t.graph g).held.map (·.imp) = some true) ∧
  (∀ f, x.live = true → x.noted = [f] → x.raised = [] → 2 ≤ x.clean → x.pocket = [] → f.imp = false → x.dead = [] →
    (∃ e ∈ x.logged, e.spoiled = true ∧ e.win = f.window) → Gives (.replay g) s fun t =>
    (t.graph g).held.map (·.cause) = some 0xB0 ∧ (t.graph g).held.map (·.imp) = some true) ∧
  (∀ e, x.raised = [] → x.noted = [] → x.pocket = [e] → e.win < x.lowWin → (e.kind = .plain ∨ e.kind = .release) → e.pas.length = e.data.length →
    (s.storeRefused e.pas = none → s.unstorable e.pas = none → (∀ p ∈ e.pas, p < blockBase) → Gives (.pocketDrain g) s fun t =>
      (t.graph g).pocket = [] ∧ Bytes s (e.pas.map s.key) (leNat e.data) t ∧ (t.graph g).raised = [] ∧ t.cores = s.cores) ∧
    (∀ c, s.storeRefused e.pas = some c → Gives (.pocketDrain g) s fun t => (t.graph g).pocket = [] ∧ t.mem = s.mem ∧
      ∃ i, (t.graph g).raised = [i] ∧ i.cause = c ∧ i.imp = true ∧ i.window = e.win)) ∧
  (∀ e b, x.raised = [] → x.noted = [] → x.pocket = [e] → e.win < x.lowWin → e.kind = .spoiled b → Gives (.pocketDrain g) s fun t =>
    (t.graph g).pocket = [] ∧ t.mem = s.mem ∧ ∃ i, (t.graph g).raised = [i] ∧ i.cause = 0xB0 ∧ i.imp = true ∧ i.addr = e.pas.headD 0) ∧
  (∀ e, x.raised = [] → x.noted = [] → x.pocket = [e] → x.lowWin ≤ e.win → Gives (.pocketDrain g) s fun t => (t.graph g).pocket = [e] ∧ t.mem = s.mem) ∧
  (x.raised ≠ [] ∨ x.noted ≠ [] → Gives (.pocketDrain g) s fun t => t = s)

/-- R332, R371, R372, R373, R374, R375: a request whose descriptor and member table can be read and keep their form joins its collective; where they do not,
or the request disagrees with another, every member that waits is answered at once. Once every member of a collective has come, their destinations are written and every member gets status 0, or the cause that refused bytes of a destination: an all-gather
writes the concatenation of the sources by rank, a reduction of integers the sums modulo 2^32. A member that is missing 2^28 cycles after the first request makes
every member present get 0x29 with detail 3; of memory only bytes of its destination can have changed. -/
def Obligations.Collectives : Prop := ∀ (s : State) (g : GenAt) (tag : BitVec 16),
  let x := s.graph g.graph
  let q := s.gen g
  (∀ k rest id d m, q.reqs = k :: rest → q.line.findSome? (fun i => match i.wait with
      | some id => if s.colls.any fun r => r.src = g && r.item = id then none else some id
      | none => none) = some id →
    let a := ((k.lane 0).setWidth 32).toNat + 2 ^ 32 * (((k.lane 1).setWidth 32).toNat % 2 ^ 20)
    let die := q.core.val / 64
    let req : CollDesc → List Byte → CollReq := fun d m => ⟨g, id, Fin.ofNat 4 die, x.asid, d, m, s.cycle⟩
    let fails : List CollReq → Nat → Nat → Prop := fun rs status detail =>
      Gives (.collectiveRequest g) s fun t => Replied s t rs status detail ∧ (t.gen g).reqs = rest ∧ t.mem = s.mem
    (s.engineRead x.asid a 64 = .ok d → a % 64 = 0 → descOk d = true → s.engineRead x.asid (CollDesc.memb d) (CollDesc.ranks d) = .ok m →
      (m.getD (CollDesc.rank d) 0).toNat = (4 * s.modnum + die) % 256 →
      (∀ r ∈ s.collPeers (req d m), collDisagree (req d m) r = false) → Gives (.collectiveRequest g) s fun t =>
        t.colls = s.colls ++ [req d m] ∧ (t.gen g).reqs = rest ∧ t.mem = s.mem) ∧
    (s.engineRead x.asid a 64 = .ok d → a % 64 = 0 → descOk d = true → s.engineRead x.asid (CollDesc.memb d) (CollDesc.ranks d) = .ok m →
      (m.getD (CollDesc.rank d) 0).toNat = (4 * s.modnum + die) % 256 → (∃ r ∈ s.collPeers (req d m), collDisagree (req d m) r = true) →
      fails (s.collPeers (req d m) ++ [req d m]) 0x29 2) ∧
    (a % 64 ≠ 0 → fails [req [] []] 0x29 1) ∧
    (s.engineRead x.asid a 64 = .ok d → a % 64 = 0 → descOk d = false → fails (s.collPeers (req d []) ++ [req d []]) 0x29 1) ∧
    (∀ c, s.engineRead x.asid a 64 = .ok d → a % 64 = 0 → descOk d = true → s.engineRead x.asid (CollDesc.memb d) (CollDesc.ranks d) = .error c →
      fails (s.collPeers (req d []) ++ [req d []]) c.toNat (CollDesc.rank d)) ∧
    (s.engineRead x.asid a 64 = .ok d → a % 64 = 0 → descOk d = true → s.engineRead x.asid (CollDesc.memb d) (CollDesc.ranks d) = .ok m →
      (m.getD (CollDesc.rank d) 0).toNat ≠ (4 * s.modnum + die) % 256 → fails (s.collPeers (req d m) ++ [req d m]) 0x29 1)) ∧
  (∀ r others r0 rs bs pas, s.colls.filter (fun r => CollDesc.tag r.desc = tag.toNat) = r :: others → s.collMembers r = some (r0 :: rs) →
    collOverlap (r0 :: rs) = false → firstError 0 ((r0 :: rs).map fun r => s.engineRead r.asid (CollDesc.src r.desc) (CollDesc.srcLen r.desc)) = .ok bs →
    firstError 0 ((r0 :: rs).map fun r => s.enginePas r.asid .store (CollDesc.dstLen r.desc / 65536 + 2) (CollDesc.dst r.desc) (CollDesc.dstLen r.desc)) = .ok pas →
    let outs := pas.zipIdx.map fun p => (p.1, collOut r0.desc bs p.2)
    Gives (.collectiveComplete tag) s fun t => t.mem = (s.collWrite outs).mem ∧ (∀ c ∈ r0 :: rs, c ∉ t.colls) ∧
      (s.collRefused outs = none → Replied s t (r0 :: rs) 0 0) ∧ ∀ c n, s.collRefused outs = some (c, n) → Replied s t (r0 :: rs) c.toNat n) ∧
  (∀ d : CollDesc, ∀ bs : List (List Byte), ∀ n,
    (CollDesc.op d = 1 → collOut d bs n = bs.flatten) ∧
    (CollDesc.op d = 0 → CollDesc.dt d = 2 → bs ≠ [] → (∀ b ∈ bs, (n + 1) * CollDesc.count d * 4 ≤ b.length) →
      (collOut d bs n).length = 4 * CollDesc.count d ∧ ∀ i < CollDesc.count d, byteNat (collOut d bs n) (4 * i) 4 = sums bs (n * CollDesc.count d + i))) ∧
  (∀ r, s.colls = [r] → CollDesc.tag r.desc = tag.toNat →
    (r.since + 2 ^ 28 ≤ s.cycle → Gives (.collectiveTimeout tag) s fun t => Replied s t [r] 0x29 3 ∧ t.colls = [] ∧
      ∀ k, (∀ j < CollDesc.dstLen r.desc / CollDesc.esize r.desc, ∀ pas,
        s.enginePas r.asid .store 2 (CollDesc.dst r.desc + j * CollDesc.esize r.desc) (CollDesc.esize r.desc) = .ok pas → k ∉ pas.map s.key) →
        t.byteAt k = s.byteAt k) ∧
    (s.cycle < r.since + 2 ^ 28 → Gives (.collectiveTimeout tag) s fun t => t = s))

/-! ### The host, Dvorrok, repair, cycles, resets (01, 28, 29) -/

/-- R459, R460, R332, R466: a read by the host changes nothing; its write changes the bytes it names; one in the line of an active barrier is discarded and core 0
of die 0 gets 0x2C. RELEASE sets RELSTAT busy and, completed, starts a held or stopped core at the address, its registers as after reset; any other gives the
failure code. MODNUM takes 7 bits while no core runs; QTABLE its base and EN; every other offset of the block has the effect of its register or none. -/
def Obligations.HostAccesses : Prop := ∀ (s : State) (off n : Nat) (bs : List Byte) (v : Word) (o : BitVec 24),
  let c := releaseTarget v
  Gives (.hostMemRead off n) s (fun t => t = s) ∧
  (off + bs.length ≤ devBytes → (∀ p ∈ addrs off bs.length, s.activeLine (s.key p) = false ∧ s.unstorable [p] = none) → Gives (.hostMemWrite off bs) s fun t =>
    Bytes s (keysAt s off bs.length) (leNat bs) t ∧ t.cores = s.cores) ∧
  (∀ b, off < devBytes → bs = [b] → s.activeLine (s.key off) = true → Gives (.hostMemWrite off bs) s fun t =>
    t.mem = s.mem ∧ (t.core (s.addressee 5 0)).pending = (s.core (s.addressee 5 0)).pending ++ [⟨0x2C, true, BitVec.ofNat 64 off, []⟩]) ∧
  (kept s.block.relstat 0 2 ≠ 1 → Gives (.releaseWrite v) s fun t =>
    t.block.relstat = BitVec.ofNat 64 (1 + 4 * (v.toNat / 2 ^ 52 % 256)) ∧ t.block.relReq = some v ∧ t = { s with block := t.block }) ∧
  (kept s.block.relstat 0 2 = 1 → Gives (.releaseWrite v) s fun t => t = s) ∧
  (SMap.wf .reset s.cores = true → s.block.relReq = some v → ((s.core c).run = .held ∨ (s.core c).run = .stopped) → v.toNat / 2 ^ 60 = 0 → Gives (.releaseComplete) s fun t =>
    (t.core c).run = .running ∧ (t.core c).pc = kept v 2 52 ∧ (∀ r, (t.core c).reg r = 0) ∧ (t.core c).status = 4 ∧ (t.core c).asid = 0 ∧
    (t.core c).wait = .none ∧ (t.core c).pending = (s.core c).pending ∧ t.block.relstat = BitVec.ofNat 64 (2 + 4 * c.val) ∧ t.block.relReq = none ∧
    t.mem = s.mem) ∧
  (s.block.relReq = some v → ((s.core c).run = .running ∨ (s.core c).run = .retired ∨ v.toNat / 2 ^ 60 ≠ 0) → Gives (.releaseComplete) s fun t =>
    t.block.relstat = BitVec.ofNat 64 (3 + 4 * c.val) ∧ t.block.relReq = none ∧ t = { s with block := t.block }) ∧
  ((∀ k ∈ s.cores, k.2.run ≠ .running) → Gives (.modnumWrite v) s fun t => t = { s with block := { s.block with modnum := kept v 0 7 } }) ∧
  ((∃ k ∈ s.cores, k.2.run = .running) → Gives (.modnumWrite v) s fun t => t = s) ∧
  Gives (.qtableWrite v) s (fun t => t = { s with block := { s.block with qtable := kept v 12 52 + kept v 0 1 } }) ∧
  Gives (.regblockWrite o v) s (fun t =>
    if 0x200 ≤ o.toNat ∧ o.toNat < 0x240 then
      (s.dv.host.busy = true → t = s) ∧
      (s.dv.host.busy = false → s.dv.host.req.length = 64 → o.toNat % 8 = 0 → t = { s with dv := { s.dv with host := { s.dv.host with req := t.dv.host.req } } } ∧
        t.dv.host.req.length = 64 ∧ byteNat t.dv.host.req (o.toNat - 0x200) 8 = v.toNat ∧
        ∀ i < 64, (i < o.toNat - 0x200 ∨ o.toNat - 0x200 + 8 ≤ i) → t.dv.host.req.getD i 0 = s.dv.host.req.getD i 0)
    else match o.toNat with
      | 0x008 => exec (.modnumWrite v) s = .next t
      | 0x010 => exec (.qtableWrite v) s = .next t
      | 0x018 => exec (.astabWrite v) s = .next t
      | 0x020 => t = { s with bartab := keepBartab v }
      | 0x028 => t = { s with ctxtab := keepCtxtab v }
      | 0x030 => exec (.releaseWrite v) s = .next t
      | 0x058 => t = { s with dv := t.dv } ∧ (v.getLsbD 0 = true → s.dv.host.busy = false → t.dv.host.busy = true ∧ t.dv.order = s.dv.order ++ [.host]) ∧
          (v.getLsbD 0 = false → t.dv.host.busy = s.dv.host.busy ∧ t.dv.order = s.dv.order)
      | _ => t = s)

/-- R471, R472, R473: Dvorrok answers the first request that waits: KEYPUB with the key in a second response, SPAREQ with its counts, SETTIME where time does not run
backward, the others where LOCK allows; each refusal has status 1 and changes nothing. MBCTL.NEXT puts the second response in the slot.
R471, R472, R480, R481: CHECKPOINT freezes every running graph; done, the cores that ran are stopped, the safe tier holds device memory and the module, and the
response is there; after a shutdown the module stops. RESTORE takes back an image that stands in host memory; READSAFE copies one out. -/
def Obligations.MailboxesAndCheckpoints : Prop :=
  (∀ (s : State) (m : Mailbox),
  let op : Nat → Nat → Nat := fun o n => byteNat (s.dv.box m).req o n
  let done : Instr → Byte → List Byte → Option (List Byte) → (State → Prop) → Prop := fun i st data second P =>
    Gives i s fun t => Answered s m st data second t ∧ OnlyDvorrok s t ∧ P t
  let same : State → Prop := fun t => t.dv.time = s.dv.time ∧ t.dv.locked = s.dv.locked ∧ t.dv.mkey = s.dv.mkey ∧ t.dv.ranges = s.dv.ranges ∧
    t.dv.ringBase = s.dv.ringBase ∧ t.dv.ringLog = s.dv.ringLog ∧ t.dv.ringCtl = s.dv.ringCtl
  let first : Nat → Prop := fun code => s.dv.order.head? = some m ∧ (s.dv.box m).busy = true ∧ op 0 1 = code
  (first 0x01 → done (.keypub m) 0 [] (some (beBytes 64 Config.publicKey.toNat)) same) ∧
  (first 0x06 → done (.spareq m) 0 s.repair.counts none same ∧ s.repair.counts.length = 24) ∧
  (s.dv.service = .idle →
    (first 0x02 → (s.dv.time.toNat ≤ op 8 8 → done (.settime m) 0 [] none fun t => t.dv.time.toNat = op 8 8 ∧ t.dv.locked = s.dv.locked) ∧
      (op 8 8 < s.dv.time.toNat → done (.settime m) 1 [] none same)) ∧
    (first 0x03 → s.dv.locked = false → op 8 8 % 4096 = 0 → op 16 8 % 4096 = 0 → op 24 1 ≤ 7 → hostBase ≤ op 8 8 → op 8 8 + op 16 8 ≤ domBase →
      done (.stampcfg m) 0 [] none fun t => t.dv.ranges.get (0, 0) (op 24 1) = (op 8 8, op 16 8) ∧
        ∀ i, i ≠ op 24 1 → t.dv.ranges.get (0, 0) i = s.dv.ranges.get (0, 0) i) ∧
    (first 0x04 → s.dv.locked = false → 4 ≤ op 16 1 → op 16 1 ≤ 20 → done (.ringcfg m) 0 [] none fun t =>
      t.dv.ringBase = op 8 8 / 128 * 128 % 2 ^ 52 ∧ t.dv.ringLog = op 16 1 ∧ t.dv.ringCtl = op 24 8 / 64 * 64 % 2 ^ 52) ∧
    (first 0x05 → s.dv.locked = false → done (.lock m) 0 [] none fun t => t.dv.locked = true) ∧
    (first 0x0A → s.dv.locked = false → done (.mkeyset m) 0 [] none fun t => t.dv.mkey = BitVec.ofNat 64 (op 8 8)) ∧
    (first 0x0B → s.dv.locked = false → done (.mkeyget m) 0 (leBytes 8 s.dv.mkey.toNat) none same) ∧
    (s.dv.locked = true →
      ∀ p ∈ ([(.stampcfg m, 3), (.ringcfg m, 4), (.lock m, 5), (.mkeyset m, 0x0A), (.mkeyget m, 0x0B)] : List (Instr × Nat)),
        first p.2 → done p.1 1 [] none same)) ∧
  (∀ k stop n, s.dv.service = .saving k stop ∨ s.dv.service = .reading n →
    ∀ p ∈ ([(.settime m, 2), (.stampcfg m, 3), (.ringcfg m, 4), (.lock m, 5), (.mkeyset m, 0x0A), (.mkeyget m, 0x0B)] : List (Instr × Nat)),
      first p.2 → done p.1 3 [] none same) ∧
  (∀ r, s.dv.host.rsp2 = some r → Gives .mbctlNext s fun t => t.dv.host.rsp = r ∧ t.dv.host.rsp2 = none ∧ OnlyDvorrok s t)) ∧
  (∀ (s : State) (m : Mailbox),
  let op : Nat → Nat → Nat := fun o n => byteNat (s.dv.box m).req o n
  let first : Nat → Prop := fun code => s.dv.order.head? = some m ∧ (s.dv.box m).busy = true ∧ op 0 1 = code
  let frozen : Option Mailbox → Bool → State → Prop := fun k stop t => t.dv.service = .saving k stop ∧ t.mem = s.mem ∧ t.cores = s.cores ∧
    ∀ g, t.graph g = if (s.graph g).cuttable then { s.graph g with frozen := true } else s.graph g
  (first 0x07 → s.dv.service = .idle → Gives (.checkpoint m) s fun t => frozen (some m) false t ∧ t.dv.order = s.dv.order.erase m) ∧
  (∀ k stop, first 0x07 → s.dv.service = .saving k stop → Gives (.checkpoint m) s fun t => Answered s m 1 [] none t ∧ OnlyDvorrok s t) ∧
  (s.dv.service = .idle → Gives .thermalShutdown s (frozen none true)) ∧
  (∀ k stop, s.dv.service = .saving k stop → Gives .thermalShutdown s fun t => t.dv.service = .saving k true ∧ OnlyDvorrok s t) ∧
  (∀ k stop, s.dv.service = .saving k stop → (∀ g ∈ s.graphIxs, (s.graph g).cuttable = false) → (∀ p ∈ s.cores, p.2.between = true) → SMap.wf .reset s.cores = true → Gives .checkpointDone s fun t =>
    (∃ i, t.dv.safe = some i ∧ i.cores = s.cores ∧ i.graphs = s.graphs ∧ i.sites = s.sites ∧ i.astab = s.astab ∧ i.modnum = s.block.modnum ∧
      ∀ a, i.mem.get 0 a = if a < devBytes then s.byteAt a else 0) ∧
    (∀ c, t.core c = if (s.core c).run = .running then { s.core c with run := .stopped } else s.core c) ∧
    t.mem = s.mem ∧ t.dv.service = .idle ∧ t.dv.stopped = stop ∧ (∀ b, k = some b → (t.dv.box b).busy = false)) ∧
  (s.dv.service = .idle → first 0x08 → ∀ i, s.dv.safe = some i →
    (window (op 8 8) = .host → s.physBytes (op 8 8) (Config.safeImage i).length = Config.safeImage i → Gives (.restore m) s fun t =>
      Answered s m 0 [] none t ∧ t.cores = i.cores ∧ t.graphs = i.graphs ∧ t.sites = i.sites ∧ t.tiles = i.tiles ∧ t.regions = i.regions ∧
      t.astab = i.astab ∧ t.bartab = i.bartab ∧ t.ctxtab = i.ctxtab ∧ t.block.qtable = i.qtable ∧ t.block.modnum = i.modnum ∧ t.tcs = [] ∧ t.micro = []) ∧
    (window (op 8 8) ≠ .host → Gives (.restore m) s fun t => Answered s m 1 [] none t ∧ OnlyDvorrok s t)) ∧
  (s.dv.service = .idle → first 0x09 →
    (s.dv.safe = none → Gives (.readsafe m) s fun t => Answered s m 1 [] none t ∧ OnlyDvorrok s t) ∧
    (s.dv.safe ≠ none → Gives (.readsafe m) s fun t => t.dv.service = .reading m ∧ t.dv.order = s.dv.order.erase m ∧ OnlyDvorrok s t)) ∧
  (∀ i, s.dv.service = .reading m → s.dv.safe = some i →
    let bs := ((Config.safeImage i).drop (op 16 8)).take (op 24 8)
    (∀ p ∈ addrs (op 8 8) bs.length, window p = .host) → Gives .readsafeDone s fun t =>
      Answered s m 0 [] none t ∧ Bytes s (keysAt s (op 8 8) bs.length) (leNat bs) t ∧ t.dv.service = .idle ∧ t.cores = s.cores))

/-- R463, R477, R478, R479, R481: soft errors and what finds them, units retired with and without a spare, links and heat. -/
def Obligations.Reliability : Prop := ∀ (s : State) (w : Nat) (e : Elt) (f : Fin 3) (n : Fin 256) (p : Fin 8) (d : Fin 4) (g : GraphIx) (i : Nat) (c : CoreIx)
    (j : Reg),
  let r := s.repair
  let withRepair : Repair → State → Prop := fun q t => t = { s with repair := q }
  let spent : Nat → State → Prop := fun unit t => t.block.repl = true ∧ (2, unit) ∈ t.block.events ∧
    ∃ v, (t.core (s.addressee 5 0)).pending = (s.core (s.addressee 5 0)).pending ++ [⟨0xB5, true, v, []⟩]
  (∀ k ∈ [SoftTarget.dram w, .sram w, .tile e w, .pocket g i, .log g i, .register c j], Gives (.softError k false) s (withRepair { r with corrected := r.corrected + 1 })) ∧
  Gives (.softError (.dram w) true) s (withRepair { r with marks := r.marks.set 0 w 0xB1 }) ∧
  Gives (.softError (.sram w) true) s (withRepair { r with marks := r.marks.set 0 w 0xB0 }) ∧
  Gives (.softError (.tile e w) true) s (withRepair { r with badTiles := r.badTiles ++ [({ e with plane := 0 }, w)] }) ∧
  (∀ a b x, (s.graph g).pocket = a ++ x :: b → i = a.length → Gives (.softError (.pocket g i) true) s
    (GraphNow s g { s.graph g with pocket := a ++ { x with kind := .spoiled x.last } :: b })) ∧
  (∀ a b x, (s.graph g).logged = a ++ x :: b → i = a.length → Gives (.softError (.log g i) true) s fun t =>
    ∃ y, y.spoiled = true ∧ y.win = x.win ∧ GraphNow s g { s.graph g with logged := a ++ y :: b } t) ∧
  (Gives (.softError (.register c j) true) s fun t => (∀ d, d ≠ c → t.core d = s.core d) ∧
    t.core c = { s.core c with spoiled := (t.core c).spoiled } ∧ ∀ k, k ∈ (t.core c).spoiled ↔ k ∈ (s.core c).spoiled ∨ (k = j ∧ j ≠ 0)) ∧
  (∀ u, Gives (.softError (.frame e f) u) s (withRepair { r with badFrames := r.badFrames ++ [(e, f, u)] })) ∧
  (r.badFrames = [(e, f, false)] → Gives .configScrub s (withRepair { r with badFrames := [], corrected := r.corrected + 1 })) ∧
  (∀ g, r.badFrames = [(e, f, true)] → s.ownerOf e = some g → (s.graph g).started = true → (s.graph g).st ≠ .held → (s.graph g).raised = [] → (s.graph g).noted = [] →
    Gives .configScrub s fun t => (∃ i, (t.graph g).raised = [i] ∧ i.cause = 0xB2 ∧ i.imp = true ∧ i.loc = s.locOf e) ∧ t.repair = r ∧ t.mem = s.mem) ∧
  (Gives .patrolScrub s fun t => t = { s with block := { s.block with events := t.block.events } } ∧
    t.block.events = s.block.events ++ (r.marks.filter fun q => q.2 = 0xB1).map fun q => (1, q.1)) ∧
  Gives (.linkFlitReplay p) s (fun t => t = { s with links := { s.links with replays := s.links.replays + 1 } }) ∧
  (r.rows.get 0 n.val < 1024 → Gives (.unitRetire (.dramRow n)) s (withRepair { r with rows := r.rows.set 0 n.val (r.rows.get 0 n.val + 1) })) ∧
  (1024 ≤ r.rows.get 0 n.val → Gives (.unitRetire (.dramRow n)) s fun t => spent n.val t ∧ t.repair = r) ∧
  ((∀ c ∈ r.channels, c.val / 8 ≠ n.val / 8) → Gives (.unitRetire (.channel n)) s (withRepair { r with channels := r.channels ++ [n] })) ∧
  ((∃ c ∈ r.channels, c.val / 8 = n.val / 8) → Gives (.unitRetire (.channel n)) s fun t => spent n.val t ∧ t.repair = { r with offline := r.offline ++ [n] }) ∧
  (r.lanes.get 0 p.val < 2 → Gives (.unitRetire (.linkLane p)) s fun t => t.links.spared.getLsbD p.val = true ∧ t.repair.lanes.get 0 p.val = r.lanes.get 0 p.val + 1) ∧
  (2 ≤ r.lanes.get 0 p.val → Gives (.unitRetire (.linkLane p)) s (spent p.val)) ∧
  ((n, p) ∉ r.slices → Gives (.unitRetire (.slice n p)) s (withRepair { r with slices := r.slices ++ [(n, p)] })) ∧
  (∀ q : Fin 16, (∀ k b, s.dv.service ≠ .saving k b) → n ∉ r.spareUsed → (s.region n q).unowned = true → (∀ k ∈ r.regions, k.1 ≠ n) →
    Gives (.unitRetire (.region n q)) s fun t => n ∈ t.repair.spareUsed ∧ (n, q) ∉ t.repair.regions ∧ t.region n q = .reset ∧
      (∀ i : Fin 16, ∀ pl : Fin 4, t.site ⟨n, q, i, pl⟩ = .empty) ∧ ∀ i : Fin 16, t.tileBytes ⟨n, q, i, 0⟩ = []) ∧
  (∀ q : Fin 16, (∀ k b, s.dv.service ≠ .saving k b) → n ∉ r.spareUsed → (s.region n q).unowned = false → (∀ k ∈ r.regions, k.1 ≠ n) →
    Gives (.unitRetire (.region n q)) s (withRepair { r with regions := r.regions ++ [(n, q)] })) ∧
  (∀ q : Fin 16, (∀ k b, s.dv.service ≠ .saving k b) → (n, q) ∉ r.regions → (n ∈ r.spareUsed ∨ ∃ k ∈ r.regions, k.1 = n) →
    Gives (.unitRetire (.region n q)) s fun t => spent (16 * n.val + q.val) t ∧ (n, q) ∈ t.repair.regions) ∧
  Gives (.portDown p) s (fun t => t = { s with links := { s.links with up := t.links.up } } ∧
    ∀ i : Fin 8, t.links.up.getLsbD i.val = if i = p then false else s.links.up.getLsbD i.val) ∧
  Gives (.portUp p) s (fun t => t = { s with links := { s.links with up := t.links.up, spared := t.links.spared } } ∧
    ∀ i : Fin 8, t.links.up.getLsbD i.val = (if i = p then true else s.links.up.getLsbD i.val) ∧
      t.links.spared.getLsbD i.val = (if i = p ∧ 0 < r.lanes.get 0 p.val then true else s.links.spared.getLsbD i.val)) ∧
  Gives (.thermalThrottle d) s (fun t => OnlyDvorrok s t ∧ ∀ i, i ∈ t.dv.throttle ↔ i = d ∨ i ∈ s.dv.throttle) ∧
  Gives (.thermalThrottleEnd d) s (fun t => OnlyDvorrok s t ∧ ∀ i, i ∈ t.dv.throttle ↔ i ≠ d ∧ i ∈ s.dv.throttle)

/-- R14, R16, R92, R93, R95, R473: with a cycle, CLOCK of every core that is not held takes the value written to it, or counts up; TIME counts seconds; every stage drives
its slot return by what it holds, and what an element wrote stands in its output once that is empty. A token that is the only one to move leaves its output
and stands in the link stage its route leads to.
R25, R459, R471, R473: a device reset holds every core, its registers at their reset values, and clears the module's registers and graphs; memory and what has been retired
stay (log entry 50). A cold reset clears LOCK, TIME and the stamp configuration too and derives the mask key. -/
def Obligations.CyclesAndResets : Prop :=
  (∀ (s : State),
  (Gives .cycle s fun t => t.cycle = s.cycle + 1 ∧ t.mem = s.mem ∧
    (∀ e n, (stageAt (t.site e).links n).ret = decide ((stageAt (t.site e).links n).toks.length < (stageAt (t.site e).links n).cap)) ∧
    (∀ e n, (stageAt (t.site e).ports n).ret = decide ((stageAt (t.site e).ports n).toks.length < (stageAt (t.site e).ports n).cap)) ∧
    (∀ e, (t.site e).elem.fired = false ∧ (t.site e).rout.fired = false) ∧
    (s.dv.timeFrac + 1 < 1750000000 → t.dv.time = s.dv.time ∧ t.dv.timeFrac = s.dv.timeFrac + 1) ∧
    (1750000000 ≤ s.dv.timeFrac + 1 → t.dv.time = s.dv.time + 1 ∧ t.dv.timeFrac = 0) ∧
    (SMap.wf .reset s.cores = true → ∀ c, t.core c = if (s.core c).run = .held then s.core c
      else { s.core c with clock := (s.core c).clockNext.getD ((s.core c).clock + 1), clockNext := none })) ∧
  (∀ e u o k tok, s.sites.flatMap (fun p => s.siteMoves (eltOf p.1)) = [⟨e, 9 + o, [.link u k], tok⟩] → o < 3 →
    s.repair.regions = [] →
    (∀ x ∈ s.graphs, x.2.clone = [] ∧ ∀ q ∈ x.2.gens, q.2.out.cur = none) → SMap.wf .empty s.sites = true → s.waiters = [] →
    (∀ v, SMap.wf .empty (s.site v).links = true ∧ SMap.wf .empty (s.site v).outs = true) → Gives .cycle s fun t =>
      (stageAt (t.site u).links k).toks = (stageAt (s.site u).links k).toks ++ [tok] ∧
      ((t.site e).out o).cur = ((s.site e).out o).nxt ∧ ((t.site e).out o).nxt = none ∧
      ∀ v n, (v, n) ≠ (u, k) → (stageAt (t.site v).links n).toks = (stageAt (s.site v).links n).toks)) ∧
  (∀ (s : State),
  let after : State → Prop := fun t => (∀ c, t.core c = .reset) ∧ (∀ g, t.graph g = .free) ∧ t.mem = s.mem ∧ t.astab = 0 ∧ t.bartab = 0 ∧ t.ctxtab = 0 ∧
    t.block = State.reset.block ∧ t.cycle = 0 ∧ t.agenda = [] ∧ t.dv.host = .reset ∧ t.dv.mgmt = .reset ∧ t.dv.service = .idle ∧
    t.dv.safe = s.dv.safe ∧ t.repair = { s.repair with badFrames := [] } ∧ t.links = { s.links with up := 0, spared := 0 }
  Gives .deviceReset s (fun t => after t ∧ t.dv.locked = s.dv.locked ∧ t.dv.time = s.dv.time ∧ t.dv.mkey = s.dv.mkey ∧ t.dv.ranges = s.dv.ranges) ∧
  Gives .coldReset s (fun t => after t ∧ t.dv.locked = false ∧ t.dv.time = 0 ∧ t.dv.mkey = bootMkey ∧ t.dv.ranges = [] ∧ t.dv.ringBase = 0 ∧
    t.dv.ringLog = 0 ∧ t.dv.ringCtl = 0 ∧ t.dv.throttle = []))

/-! ### Completion -/

/-- R346-R349, R384, R389, R238, R239, R416, R231, R233, R236, R371-R375, R437-R449: the commands of configuration and of held graphs, the generators of cameras, lattices
and rings, and the events of contexts, clones, blocks and collectives complete: each in the plainest case of its rule, with what the rule gives then. (What they do in every
case: ImageLoad, PlaneLoads, HeldGraphs, CameraGenerators, PleatsAndRings, Contexts, ClonesAndBlocks, Collectives.) -/
def Obligations.CommandsComplete : Prop := ∀ (s : State) (i : GraphIx) (g : GenAt) (t : Token),
  let x := s.graph i
  let u := s.genDeliver g
  let q := u.gen g
  let y := u.graph g.graph
  let numbers : Nat → Prop := fun m => ∀ j < m, t.valid j = true ∧ readW40 (t.lane j) ≠ .nan
  (∀ (s1 s2 : State) (d a b : Reg) (p : BitVec 2) (n : Byte) (pre : List Byte),
    let load : Load := ⟨p.toNat, (s.reg a).toNat, s.me.asid, .pages, pre, n.toNat, []⟩
    (s.reg a).toNat + 1 ≤ 2 ^ 52 → s.reg b ≠ 0 → s.byHandle (s.reg b) = some i → x.ctx = .running → 1 ≤ n.toNat → n.toNat ≤ 64 →
    ReadsTo s (s.reg a + 5) 1 [n] s1 → ReadsTo s1 (s.reg a + 256) (8 * n.toNat) pre s2 →
    (∀ page ∈ load.pages, ∀ r, x.place page = some r → PlaneIs s r.1 r.2 p.toNat .empty none) →
    Gives (.cfgload d a b p) s fun v => RegsWritten s.me d (s.handle i) v.me ∧ v.me.pc = s.me.pc + 4 ∧ load ∈ (v.graph i).loads ∧
      ∀ page ∈ load.pages, ∀ r, x.place page = some r → PlaneIs v r.1 r.2 p.toNat .loading (some i)) ∧
  (∀ (a : Reg) (p : BitVec 2), s.byHandle (s.reg a) = some i → x.ctx = .running → x.clone = [] → (∀ r ∈ x.pages, PlaneIs s r.2.1 r.2.2 p.toNat .shadow (some i)) →
    Gives (.cfgdrop a p) s fun v => v.me.pc = s.me.pc + 4 ∧ ∀ r ∈ x.pages, PlaneIs v r.2.1 r.2.2 p.toNat .empty none) ∧
  (∀ h, x.st = .held → x.held = some h →
    (h.cause = 0x80 → Gives (.gctlResume i) s (fun v => (v.graph i).st = .resolve) ∧ Gives (.gctlEnd i) s fun v => (v.graph i).st = .ended) ∧
    (h.cause = 0x66 → Gives (.gctlDrop i) s (fun v => (v.graph i).st ≠ .held) ∧
      ∀ k, s.strays i = [k] → k.code = h.stray → Gives (.gctlNext i) s fun v => (v.graph i).st ≠ .held)) ∧
  (GenReady s g 0x10 → Meets u g t → t.kind = 0 → t.valid 0 = true → 0 ≤ int t 0 → int t 0 < 2 ^ 20 → q.f.getLsbD 4 = false →
    gBase q.f + 128 * (int t 0).toNat + 128 ≤ 2 ^ 52 →
    ∀ img w, gread g (gBase q.f + 128 * (int t 0).toNat) 128 (opened u g) = .ok (img, w) → camOk y.stores.length img = true →
    Turn (.camld g) s g fun v => Took u v g ∧ (v.graph g.graph).camera (q.f.toNat % 16) = img) ∧
  (GenReady s g 0x11 → Meets u g t → t.kind = 0 → gClass q.f ≠ 2 → numbers 3 → camOk y.stores.length q.cam = true →
    inView q.cam (t.lane 0) (t.lane 1) (t.lane 2) = false →
    Turn (.camg g) s g fun v => Took u v g ∧ Queued u v g (camMiss (y.storeOf q.cam) 2 ++ [stop 0])) ∧
  (GenReady s g 0x12 → Meets u g t → t.kind = 0 → numbers 2 → camOk y.stores.length q.cam = true →
    inView q.cam (t.lane 0) (t.lane 1) (Camera.near q.cam) = false →
    Turn (.camr g) s g fun v => Took u v g ∧ Queued u v g (camMiss (y.storeOf q.cam) 2 ++ [stop 0])) ∧
  (∀ coord, GenReady s g 0x13 → Meets u g t → gClass q.f ≠ 2 → q.part.first = some coord → t.kind ≠ 0 → t.kind ≠ 7 →
    ((y.storeOf q.cam).plen + 15) / 16 ≤ q.part.toks.length → inView q.cam (coord.lane 0) (coord.lane 1) (coord.lane 2) = false →
    Turn (.cams g) s g fun v => Took u v g ∧ (v.gen g).part.first = none ∧ (v.graph g.graph).cams = (y.clip (q.f.toNat % 16)).cams) ∧
  (∀ node w1 w2, GenReady s g 0x14 → Meets u g t → t.kind = 0 → t.valid 0 = true → t.valid 1 = true → t.valid 2 = true →
    let a := ((t.lane 0).setWidth 32).toNat + 2 ^ 32 * ((t.lane 1).setWidth 20).toNat
    a % 8 = 0 → a + 16 ≤ 2 ^ 52 → gnat g a 8 u = .ok (1, w1) → gnat g (a + 8) 8 w1 = .ok (node, w2) → node < 2 ^ 32 →
    Turn (.pleat g) s g fun v => Took u v g ∧ Queued u v g [pleatItem (q.f.getLsbD 0) [⟨node, 0, 0, 0⟩] (int t 2) 0 0 0, stop 1]) ∧
  (∀ slot bs e w, GenReady s g 0x15 → Meets u g t → q.part.first = some slot → t.kind = 2 →
    gunder (fun s => s.withOwn g) (gread g (gBase q.f + 64 * (int slot 0).toNat) 64) (opened u g) = .ok (bs, w) → slotEntry bs = some e →
    itemsOk e.pos (rowsOf q.part.toks []) = true → e.st = 0 → Turn (.ringput g) s g fun v => Took u v g ∧ (v.gen g).part.first = none ∧
      ∃ k, (v.gen g).line = q.line ++ [⟨k, false, none, none⟩] ∧ k.kind = 0 ∧ k.mask = 0x1F ∧ k.lane 4 = 2) ∧
  (∀ a, Clear x → x.st = .run → x.ctx = .running → x.frozen = false → s.cutArea i = some a → s.cutAsked i = true →
    Gives (.quantumExpiry i) s fun v => (v.graph i).ctx = .draining ∧ (v.graph i).cutAt = s.cycle) ∧
  (∀ a, Clear x → x.ctx = .draining → x.saved = some a → x.pocket = [] →
    (2 ≤ x.clean → 2 ≤ x.bare → Gives (.cutSave i) s fun v => (v.graph i).ctx = .saving) ∧
    (x.cutAt + (s.core x.home).drainb.toNat * 1024 ≤ s.cycle → x.frozen = true → x.settled = true →
      Gives (.drainBudgetExpiry i) s fun v => (v.graph i).ctx = .saving)) ∧
  (Clear x → x.ctx = .saving → Gives (.contextSaved i) s fun v => (v.graph i).ctx = .cut ∧ (v.graph i).waits = s.cycle) ∧
  (∀ c, x.live = true → x.saved = some c →
    (∀ z, x.ctx = .cut → s.placeCut i = some z → Gives (.contextRestore i) s fun v => (v.graph i).ctx = .restoring ∧ (v.graph i).pages = z.pages) ∧
    (x.ctx = .restoring → x.loads = [] → s.heldOff i = false → c.bytes = [] → s.undeliverables (addrs c.area c.size) = none →
      Gives (.restoreComplete i) s fun v => (v.graph i).ctx = .running ∧ (v.graph i).frozen = false)) ∧
  (∀ (page : BitVec 6) (a : Elt) (r : Fin 16) (p : Fin 4), s.cloneDue i page.toNat = true → s.cuffOf i page.toNat = some a → s.cloneSpot a.core = some (r, p.val) →
    Gives (.pageClone i page) s fun v => PlaneIs v a.core r p.val .active (some i) ∧ ∃ c ∈ (v.graph i).clone, c.page = page.toNat) ∧
  (∀ (page : BitVec 6) (port : BitVec 2) (e d : Elt) (k : Token), s.dispatches i page.toNat port.toNat = some e → s.cuffHead e (8 + port.toNat) = some k → k.kind = 0 →
    k.err = false → (k.lane 15).toNat % 256 < x.nblk → s.blockPlane i ((k.lane 15).toNat % 256) = some d → s.retOf (.cuff d 0) = true →
    Gives (.blockDispatch i page port) s fun v => (stageAt (v.site d).cuffs 0).toks = (stageAt (s.site d).cuffs 0).toks ++ [k]) ∧
  (∀ n p img qb lg, x.nblk ≠ 0 → x.sitesRun = true → s.feedable i = none → x.quiet = true → s.streamsEmpty i = true → x.loads = [] →
    s.loadable i = some n → s.idlePlane i = some p → s.blockEntry i n = some (img, qb, lg) →
    Gives (.blockSchedule i) s fun v => ∃ l, (v.graph i).loads = [l] ∧ l.kind = .block n ∧ l.img = img ∧ l.plane = p) ∧
  (∀ k rest id, (s.gen g).reqs = k :: rest → (s.gen g).line = [⟨k, false, some id, none⟩] → s.colls = [] → ((k.lane 0).setWidth 32).toNat % 64 ≠ 0 →
    Gives (.collectiveRequest g) s fun v => (v.gen g).reqs = rest ∧
      ∃ c, (v.gen g).line = [⟨c, false, none, none⟩, ⟨bareOf 1, true, none, none⟩] ∧ c.lane 0 = 0x29 ∧ c.lane 1 = 1) ∧
  (∀ r0 r1, s.colls = [r0, r1] → CollDesc.tag r1.desc = CollDesc.tag r0.desc → r1.memb = r0.memb → CollDesc.ranks r0.desc = 2 → CollDesc.rank r0.desc = 0 →
    CollDesc.rank r1.desc = 1 → collOverlap [r0, r1] = true → Gives (.collectiveComplete (BitVec.ofNat 16 (CollDesc.tag r0.desc))) s fun v =>
      v.colls = [] ∧ v.mem = s.mem ∧ Replied s v [r0, r1] 0x29 1) ∧
  (∀ r, s.colls = [r] → r.since + 2 ^ 28 ≤ s.cycle → Gives (.collectiveTimeout (BitVec.ofNat 16 (CollDesc.tag r.desc))) s fun v =>
    v.colls = [] ∧ Replied s v [r] 0x29 3)
end

