-- ==== Sys2Proof/Laws/Assoc.lean ====
section
/-! SUPPORT. Sparse maps: reading after writing, and that every operation keeps the canonical form. -/

namespace Sys2Proof.Machine

variable {α : Type}

/-! ### Reading after writing -/

theorem SMap.get_erase_same (d : α) (m : SMap α) (k : Nat) : (m.erase k).get d k = d := by
  induction m with
  | nil => rfl
  | cons p r ih =>
    obtain ⟨k', v⟩ := p
    simp only [SMap.erase]
    split
    · exact ih
    · simp [SMap.get, *]

theorem SMap.get_erase_other (d : α) (m : SMap α) {k j : Nat} (h : j ≠ k) : (m.erase k).get d j = m.get d j := by
  induction m with
  | nil => rfl
  | cons p r ih =>
    obtain ⟨k', v⟩ := p
    simp only [SMap.erase, SMap.get]
    split
    · next e => subst e; simp [Ne.symm h, ih]
    · simp [SMap.get, ih]

theorem SMap.get_insert_other (d : α) (m : SMap α) {k j : Nat} (v : α) (h : j ≠ k) :
    (m.insert k v).get d j = m.get d j := by
  induction m with
  | nil => simp [SMap.insert, SMap.get, Ne.symm h]
  | cons p r ih =>
    obtain ⟨k', v'⟩ := p
    simp only [SMap.insert]
    split
    · simp [SMap.get, Ne.symm h]
    · simp [SMap.get, ih]

/-- An inserted value is read where no earlier entry has its key. -/
theorem SMap.get_insert_same (d : α) (m : SMap α) (k : Nat) (v : α) (h : ∀ p ∈ m, p.1 ≠ k) :
    (m.insert k v).get d k = v := by
  induction m with
  | nil => simp [SMap.insert, SMap.get]
  | cons p r ih =>
    obtain ⟨k', v'⟩ := p
    simp only [SMap.insert]
    split
    · simp [SMap.get]
    · have hk : k' ≠ k := h (k', v') (by simp)
      simp [SMap.get, hk]
      exact ih fun p hp => h p (by simp [hp])

theorem SMap.mem_erase_ne (m : SMap α) (k : Nat) : ∀ p ∈ m.erase k, p.1 ≠ k := by
  induction m with
  | nil => simp [SMap.erase]
  | cons p r ih =>
    obtain ⟨k', v⟩ := p
    simp only [SMap.erase]
    split
    · exact ih
    · rintro p hp
      rcases List.mem_cons.1 hp with rfl | hp
      · assumption
      · exact ih p hp

variable [DecidableEq α]

/-- A read after a write to the same key gives the value written. -/
@[simp] theorem SMap.get_set_same (d : α) (m : SMap α) (k : Nat) (v : α) : (m.set d k v).get d k = v := by
  unfold SMap.set
  split
  · next e => rw [SMap.get_erase_same, e]
  · exact SMap.get_insert_same d _ k v (SMap.mem_erase_ne m k)

/-- A write leaves every other key alone. -/
theorem SMap.get_set_other (d : α) (m : SMap α) {k j : Nat} (v : α) (h : j ≠ k) : (m.set d k v).get d j = m.get d j := by
  unfold SMap.set
  split
  · exact SMap.get_erase_other d m h
  · rw [SMap.get_insert_other d _ v h, SMap.get_erase_other d m h]

/-- Both laws as one equation. -/
theorem SMap.get_set (d : α) (m : SMap α) (k j : Nat) (v : α) :
    (m.set d k v).get d j = if j = k then v else m.get d j := by
  split
  · next e => subst e; exact SMap.get_set_same d m j v
  · next e => exact SMap.get_set_other d m v e

@[simp] theorem SMap.get_upd_same (d : α) (m : SMap α) (k : Nat) (f : α → α) :
    (m.upd d k f).get d k = f (m.get d k) := SMap.get_set_same d m k _

theorem SMap.get_upd_other (d : α) (m : SMap α) {k j : Nat} (f : α → α) (h : j ≠ k) :
    (m.upd d k f).get d j = m.get d j := SMap.get_set_other d m _ h

/-- A map with f applied to its values reads f of what it read, where f keeps the default. -/
theorem SMap.get_mapV (d : α) (f : Nat → α → α) (m : SMap α) (hf : ∀ k, f k d = d) (hm : m.wf d = true) (j : Nat) :
    (m.mapV d f).get d j = f j (m.get d j) := by
  have aux : ∀ (m : SMap α) (lo : Nat), SMap.wfFrom d lo m = true →
      (m.mapV d f).get d j = f j (m.get d j) ∧ (j < lo → m.get d j = d ∧ (m.mapV d f).get d j = d) := by
    intro m
    induction m with
    | nil => intro lo _; simp [SMap.mapV, SMap.get, hf]
    | cons p r ih =>
      obtain ⟨k, v⟩ := p
      intro lo h
      simp only [SMap.wfFrom, Bool.and_eq_true, decide_eq_true_eq] at h
      obtain ⟨⟨h1, h2⟩, h3⟩ := h
      obtain ⟨ih1, ih2⟩ := ih (k + 1) h3
      constructor
      · by_cases e : k = j
        · subst e
          have := (ih2 (by omega)).2
          simp only [SMap.mapV, SMap.get, if_true]
          split
          · next e => rw [this, e]
          · simp [SMap.get]
        · simp only [SMap.mapV, SMap.get, e, if_false]
          split
          · exact ih1
          · simp [SMap.get, e, ih1]
      · intro hj
        have e : k ≠ j := by omega
        have := ih2 (by omega)
        simp only [SMap.mapV, SMap.get, e, if_false]
        refine ⟨this.1, ?_⟩
        split
        · exact this.2
        · simp [SMap.get, e, this.2]
  exact (aux m 0 hm).1

/-! ### The canonical form -/

@[simp] theorem SMap.wf_nil (d : α) : SMap.wf d ([] : SMap α) = true := rfl

theorem SMap.wfFrom_mono (d : α) {lo lo' : Nat} (m : SMap α) (h : lo' ≤ lo) (hw : SMap.wfFrom d lo m = true) :
    SMap.wfFrom d lo' m = true := by
  cases m with
  | nil => rfl
  | cons p r =>
    obtain ⟨k, v⟩ := p
    simp only [SMap.wfFrom, Bool.and_eq_true, decide_eq_true_eq] at hw ⊢
    exact ⟨⟨by omega, hw.1.2⟩, hw.2⟩

theorem SMap.wfFrom_erase (d : α) (k : Nat) : ∀ (m : SMap α) (lo : Nat), SMap.wfFrom d lo m = true →
    SMap.wfFrom d lo (m.erase k) = true
  | [], _, _ => rfl
  | (k', v) :: r, lo, h => by
    simp only [SMap.wfFrom, Bool.and_eq_true, decide_eq_true_eq] at h
    have ih := SMap.wfFrom_erase d k r (k' + 1) h.2
    simp only [SMap.erase]
    split
    · exact SMap.wfFrom_mono d _ (by omega) ih
    · simp only [SMap.wfFrom, Bool.and_eq_true, decide_eq_true_eq]
      exact ⟨h.1, ih⟩

theorem SMap.wfFrom_insert (d : α) (k : Nat) (v : α) (hv : v ≠ d) : ∀ (m : SMap α) (lo : Nat), lo ≤ k →
    (∀ p ∈ m, p.1 ≠ k) → SMap.wfFrom d lo m = true → SMap.wfFrom d lo (m.insert k v) = true
  | [], lo, h, _, _ => by simp [SMap.insert, SMap.wfFrom, h, hv]
  | (k', v') :: r, lo, h, hne, hw => by
    simp only [SMap.wfFrom, Bool.and_eq_true, decide_eq_true_eq] at hw
    have hk : k' ≠ k := hne (k', v') (by simp)
    simp only [SMap.insert]
    split
    · simp only [SMap.wfFrom, Bool.and_eq_true, decide_eq_true_eq]
      exact ⟨⟨h, hv⟩, ⟨by omega, hw.1.2⟩, hw.2⟩
    · simp only [SMap.wfFrom, Bool.and_eq_true, decide_eq_true_eq]
      exact ⟨hw.1, SMap.wfFrom_insert d k v hv r (k' + 1) (by omega) (fun p hp => hne p (by simp [hp])) hw.2⟩

theorem SMap.wf_set (d : α) (m : SMap α) (k : Nat) (v : α) (h : m.wf d = true) : (m.set d k v).wf d = true := by
  unfold SMap.set SMap.wf at *
  split
  · exact SMap.wfFrom_erase d k m 0 h
  · next hv =>
    exact SMap.wfFrom_insert d k v hv _ 0 (by omega) (SMap.mem_erase_ne m k) (SMap.wfFrom_erase d k m 0 h)

theorem SMap.wf_upd (d : α) (m : SMap α) (k : Nat) (f : α → α) (h : m.wf d = true) : (m.upd d k f).wf d = true :=
  SMap.wf_set d m k _ h

theorem SMap.wf_setN (d : α) : ∀ (vs : List α) (m : SMap α) (k : Nat), m.wf d = true → (m.setN d k vs).wf d = true
  | [], _, _, h => h
  | v :: vs, m, k, h => SMap.wf_setN d vs (m.set d k v) (k + 1) (SMap.wf_set d m k v h)

theorem SMap.wfFrom_mapV (d : α) (f : Nat → α → α) : ∀ (m : SMap α) (lo : Nat), SMap.wfFrom d lo m = true →
    SMap.wfFrom d lo (m.mapV d f) = true
  | [], _, _ => rfl
  | (k, v) :: r, lo, h => by
    simp only [SMap.wfFrom, Bool.and_eq_true, decide_eq_true_eq] at h
    have ih := SMap.wfFrom_mapV d f r (k + 1) h.2
    simp only [SMap.mapV]
    split
    · exact SMap.wfFrom_mono d _ (by omega) ih
    · next e =>
      simp only [SMap.wfFrom, Bool.and_eq_true, decide_eq_true_eq]
      exact ⟨⟨h.1.1, e⟩, ih⟩

theorem SMap.wf_mapV (d : α) (f : Nat → α → α) (m : SMap α) (h : m.wf d = true) : (m.mapV d f).wf d = true :=
  SMap.wfFrom_mapV d f m 0 h

/-- The listed keys of a canonical map that pass a test are a canonical map. -/
theorem SMap.wfFrom_filter (d : α) (q : Nat × α → Bool) : ∀ (m : SMap α) (lo : Nat), SMap.wfFrom d lo m = true →
    SMap.wfFrom d lo (m.filter q) = true
  | [], _, _ => rfl
  | (k, v) :: r, lo, h => by
    simp only [SMap.wfFrom, Bool.and_eq_true, decide_eq_true_eq] at h
    have ih := SMap.wfFrom_filter d q r (k + 1) h.2
    simp only [List.filter]
    split
    · simp only [SMap.wfFrom, Bool.and_eq_true, decide_eq_true_eq]
      exact ⟨h.1, ih⟩
    · exact SMap.wfFrom_mono d _ (by omega) ih

theorem SMap.wf_filter (d : α) (q : Nat × α → Bool) (m : SMap α) (h : m.wf d = true) : SMap.wf d (m.filter q) = true :=
  SMap.wfFrom_filter d q m 0 h

/-- Two canonical maps, the keys of the second above a bound and those of the first below it, joined. -/
theorem SMap.wfFrom_append (d : α) (b : Nat) (n : SMap α) (hn : SMap.wfFrom d b n = true) : ∀ (m : SMap α) (lo : Nat),
    lo ≤ b → (∀ p ∈ m, p.1 < b) → SMap.wfFrom d lo m = true → SMap.wfFrom d lo (m ++ n) = true
  | [], _, h, _, _ => SMap.wfFrom_mono d n h hn
  | (k, v) :: r, lo, _, hb, hw => by
    simp only [SMap.wfFrom, Bool.and_eq_true, decide_eq_true_eq] at hw
    have hk : k < b := hb (k, v) (by simp)
    simp only [List.cons_append, SMap.wfFrom, Bool.and_eq_true, decide_eq_true_eq]
    exact ⟨hw.1, SMap.wfFrom_append d b n hn r (k + 1) (by omega) (fun p hp => hb p (by simp [hp])) hw.2⟩

/-- Equal readings at every key make canonical maps equal. -/
theorem SMap.wf_ext (d : α) : ∀ (m n : SMap α) (lo : Nat), SMap.wfFrom d lo m = true → SMap.wfFrom d lo n = true →
    (∀ k, m.get d k = n.get d k) → m = n := by
  have low : ∀ (m : SMap α) (lo k : Nat), SMap.wfFrom d lo m = true → k < lo → m.get d k = d := by
    intro m
    induction m with
    | nil => intros; rfl
    | cons p r ih =>
      obtain ⟨k', v⟩ := p
      intro lo k h hk
      simp only [SMap.wfFrom, Bool.and_eq_true, decide_eq_true_eq] at h
      have : k' ≠ k := by omega
      simp only [SMap.get, this, if_false]
      exact ih _ k h.2 (by omega)
  intro m
  induction m with
  | nil =>
    intro n lo _ hn he
    cases n with
    | nil => rfl
    | cons q t =>
      obtain ⟨k, v⟩ := q
      have := he k
      simp only [SMap.wfFrom, Bool.and_eq_true, decide_eq_true_eq] at hn
      simp [SMap.get] at this
      exact absurd this.symm hn.1.2
  | cons p r ih =>
    obtain ⟨k, v⟩ := p
    intro n lo hm hn he
    have hm' := hm
    simp only [SMap.wfFrom, Bool.and_eq_true, decide_eq_true_eq] at hm
    cases n with
    | nil =>
      have := he k
      simp [SMap.get] at this
      exact absurd this hm.1.2
    | cons q t =>
      obtain ⟨k2, v2⟩ := q
      have hn' := hn
      simp only [SMap.wfFrom, Bool.and_eq_true, decide_eq_true_eq] at hn
      have hk : k = k2 := by
        rcases Nat.lt_trichotomy k k2 with h | h | h
        · have e := he k
          have e2 : SMap.get d ((k2, v2) :: t) k = d := by
            have : k2 ≠ k := by omega
            simp only [SMap.get, this, if_false]
            exact low t (k2 + 1) k hn.2 (by omega)
          rw [e2] at e
          simp [SMap.get] at e
          exact absurd e hm.1.2
        · exact h
        · have e := he k2
          have e2 : SMap.get d ((k, v) :: r) k2 = d := by
            have : k ≠ k2 := by omega
            simp only [SMap.get, this, if_false]
            exact low r (k + 1) k2 hm.2 (by omega)
          rw [e2] at e
          simp [SMap.get] at e
          exact absurd e.symm hn.1.2
      subst hk
      have hv : v = v2 := by have := he k; simpa [SMap.get] using this
      subst hv
      have : r = t := ih t (k + 1) hm.2 hn.2 fun j => by
        by_cases hj : j < k + 1
        · rw [low r (k + 1) j hm.2 hj, low t (k + 1) j hn.2 hj]
        · have : k ≠ j := by omega
          have := he j
          simp only [SMap.get] at this
          simpa [*] using this
      rw [this]

end Sys2Proof.Machine
end

