-- ==== Sys2Proof/Laws/State.lean ====
section
/-! SUPPORT. What each update of the state and of a core leaves as it is, field by field, and reads after writes of cores
and registers. -/

namespace Sys2Proof.Machine

/-! ### State.setCore -/

@[simp] theorem State.setCore_cur (s : State) (c : CoreIx) (k : Core) : (s.setCore c k).cur = s.cur := rfl
@[simp] theorem State.setCore_agenda (s : State) (c : CoreIx) (k : Core) : (s.setCore c k).agenda = s.agenda := rfl
@[simp] theorem State.setCore_inputs (s : State) (c : CoreIx) (k : Core) : (s.setCore c k).inputs = s.inputs := rfl
@[simp] theorem State.setCore_cycle (s : State) (c : CoreIx) (k : Core) : (s.setCore c k).cycle = s.cycle := rfl
@[simp] theorem State.setCore_choices (s : State) (c : CoreIx) (k : Core) : (s.setCore c k).choices = s.choices := rfl
@[simp] theorem State.setCore_mem (s : State) (c : CoreIx) (k : Core) : (s.setCore c k).mem = s.mem := rfl
@[simp] theorem State.setCore_astab (s : State) (c : CoreIx) (k : Core) : (s.setCore c k).astab = s.astab := rfl
@[simp] theorem State.setCore_bartab (s : State) (c : CoreIx) (k : Core) : (s.setCore c k).bartab = s.bartab := rfl
@[simp] theorem State.setCore_ctxtab (s : State) (c : CoreIx) (k : Core) : (s.setCore c k).ctxtab = s.ctxtab := rfl
@[simp] theorem State.setCore_block (s : State) (c : CoreIx) (k : Core) : (s.setCore c k).block = s.block := rfl
@[simp] theorem State.setCore_links (s : State) (c : CoreIx) (k : Core) : (s.setCore c k).links = s.links := rfl
@[simp] theorem State.setCore_dv (s : State) (c : CoreIx) (k : Core) : (s.setCore c k).dv = s.dv := rfl
@[simp] theorem State.setCore_repair (s : State) (c : CoreIx) (k : Core) : (s.setCore c k).repair = s.repair := rfl
@[simp] theorem State.setCore_sites (s : State) (c : CoreIx) (k : Core) : (s.setCore c k).sites = s.sites := rfl
@[simp] theorem State.setCore_tiles (s : State) (c : CoreIx) (k : Core) : (s.setCore c k).tiles = s.tiles := rfl
@[simp] theorem State.setCore_regions (s : State) (c : CoreIx) (k : Core) : (s.setCore c k).regions = s.regions := rfl
@[simp] theorem State.setCore_graphs (s : State) (c : CoreIx) (k : Core) : (s.setCore c k).graphs = s.graphs := rfl
@[simp] theorem State.setCore_dist (s : State) (c : CoreIx) (k : Core) : (s.setCore c k).dist = s.dist := rfl
@[simp] theorem State.setCore_colls (s : State) (c : CoreIx) (k : Core) : (s.setCore c k).colls = s.colls := rfl
@[simp] theorem State.setCore_tcs (s : State) (c : CoreIx) (k : Core) : (s.setCore c k).tcs = s.tcs := rfl
@[simp] theorem State.setCore_micro (s : State) (c : CoreIx) (k : Core) : (s.setCore c k).micro = s.micro := rfl
@[simp] theorem State.setCore_losses (s : State) (c : CoreIx) (k : Core) : (s.setCore c k).losses = s.losses := rfl
@[simp] theorem State.setCore_atoms (s : State) (c : CoreIx) (k : Core) : (s.setCore c k).atoms = s.atoms := rfl
@[simp] theorem State.setCore_replies (s : State) (c : CoreIx) (k : Core) : (s.setCore c k).replies = s.replies := rfl
@[simp] theorem State.setCore_sent (s : State) (c : CoreIx) (k : Core) : (s.setCore c k).sent = s.sent := rfl

/-! ### State.setMe -/

@[simp] theorem State.setMe_cur (s : State) (k : Core) : (s.setMe k).cur = s.cur := rfl
@[simp] theorem State.setMe_agenda (s : State) (k : Core) : (s.setMe k).agenda = s.agenda := rfl
@[simp] theorem State.setMe_inputs (s : State) (k : Core) : (s.setMe k).inputs = s.inputs := rfl
@[simp] theorem State.setMe_cycle (s : State) (k : Core) : (s.setMe k).cycle = s.cycle := rfl
@[simp] theorem State.setMe_choices (s : State) (k : Core) : (s.setMe k).choices = s.choices := rfl
@[simp] theorem State.setMe_mem (s : State) (k : Core) : (s.setMe k).mem = s.mem := rfl
@[simp] theorem State.setMe_astab (s : State) (k : Core) : (s.setMe k).astab = s.astab := rfl
@[simp] theorem State.setMe_bartab (s : State) (k : Core) : (s.setMe k).bartab = s.bartab := rfl
@[simp] theorem State.setMe_ctxtab (s : State) (k : Core) : (s.setMe k).ctxtab = s.ctxtab := rfl
@[simp] theorem State.setMe_block (s : State) (k : Core) : (s.setMe k).block = s.block := rfl
@[simp] theorem State.setMe_links (s : State) (k : Core) : (s.setMe k).links = s.links := rfl
@[simp] theorem State.setMe_dv (s : State) (k : Core) : (s.setMe k).dv = s.dv := rfl
@[simp] theorem State.setMe_repair (s : State) (k : Core) : (s.setMe k).repair = s.repair := rfl
@[simp] theorem State.setMe_sites (s : State) (k : Core) : (s.setMe k).sites = s.sites := rfl
@[simp] theorem State.setMe_tiles (s : State) (k : Core) : (s.setMe k).tiles = s.tiles := rfl
@[simp] theorem State.setMe_regions (s : State) (k : Core) : (s.setMe k).regions = s.regions := rfl
@[simp] theorem State.setMe_graphs (s : State) (k : Core) : (s.setMe k).graphs = s.graphs := rfl
@[simp] theorem State.setMe_dist (s : State) (k : Core) : (s.setMe k).dist = s.dist := rfl
@[simp] theorem State.setMe_colls (s : State) (k : Core) : (s.setMe k).colls = s.colls := rfl
@[simp] theorem State.setMe_tcs (s : State) (k : Core) : (s.setMe k).tcs = s.tcs := rfl
@[simp] theorem State.setMe_micro (s : State) (k : Core) : (s.setMe k).micro = s.micro := rfl
@[simp] theorem State.setMe_losses (s : State) (k : Core) : (s.setMe k).losses = s.losses := rfl
@[simp] theorem State.setMe_atoms (s : State) (k : Core) : (s.setMe k).atoms = s.atoms := rfl
@[simp] theorem State.setMe_replies (s : State) (k : Core) : (s.setMe k).replies = s.replies := rfl
@[simp] theorem State.setMe_sent (s : State) (k : Core) : (s.setMe k).sent = s.sent := rfl

/-! ### State.updCore -/

@[simp] theorem State.updCore_cur (s : State) (c : CoreIx) (f : Core → Core) : (s.updCore c f).cur = s.cur := rfl
@[simp] theorem State.updCore_agenda (s : State) (c : CoreIx) (f : Core → Core) : (s.updCore c f).agenda = s.agenda := rfl
@[simp] theorem State.updCore_inputs (s : State) (c : CoreIx) (f : Core → Core) : (s.updCore c f).inputs = s.inputs := rfl
@[simp] theorem State.updCore_cycle (s : State) (c : CoreIx) (f : Core → Core) : (s.updCore c f).cycle = s.cycle := rfl
@[simp] theorem State.updCore_choices (s : State) (c : CoreIx) (f : Core → Core) : (s.updCore c f).choices = s.choices := rfl
@[simp] theorem State.updCore_mem (s : State) (c : CoreIx) (f : Core → Core) : (s.updCore c f).mem = s.mem := rfl
@[simp] theorem State.updCore_astab (s : State) (c : CoreIx) (f : Core → Core) : (s.updCore c f).astab = s.astab := rfl
@[simp] theorem State.updCore_bartab (s : State) (c : CoreIx) (f : Core → Core) : (s.updCore c f).bartab = s.bartab := rfl
@[simp] theorem State.updCore_ctxtab (s : State) (c : CoreIx) (f : Core → Core) : (s.updCore c f).ctxtab = s.ctxtab := rfl
@[simp] theorem State.updCore_block (s : State) (c : CoreIx) (f : Core → Core) : (s.updCore c f).block = s.block := rfl
@[simp] theorem State.updCore_links (s : State) (c : CoreIx) (f : Core → Core) : (s.updCore c f).links = s.links := rfl
@[simp] theorem State.updCore_dv (s : State) (c : CoreIx) (f : Core → Core) : (s.updCore c f).dv = s.dv := rfl
@[simp] theorem State.updCore_repair (s : State) (c : CoreIx) (f : Core → Core) : (s.updCore c f).repair = s.repair := rfl
@[simp] theorem State.updCore_sites (s : State) (c : CoreIx) (f : Core → Core) : (s.updCore c f).sites = s.sites := rfl
@[simp] theorem State.updCore_tiles (s : State) (c : CoreIx) (f : Core → Core) : (s.updCore c f).tiles = s.tiles := rfl
@[simp] theorem State.updCore_regions (s : State) (c : CoreIx) (f : Core → Core) : (s.updCore c f).regions = s.regions := rfl
@[simp] theorem State.updCore_graphs (s : State) (c : CoreIx) (f : Core → Core) : (s.updCore c f).graphs = s.graphs := rfl
@[simp] theorem State.updCore_dist (s : State) (c : CoreIx) (f : Core → Core) : (s.updCore c f).dist = s.dist := rfl
@[simp] theorem State.updCore_colls (s : State) (c : CoreIx) (f : Core → Core) : (s.updCore c f).colls = s.colls := rfl
@[simp] theorem State.updCore_tcs (s : State) (c : CoreIx) (f : Core → Core) : (s.updCore c f).tcs = s.tcs := rfl
@[simp] theorem State.updCore_micro (s : State) (c : CoreIx) (f : Core → Core) : (s.updCore c f).micro = s.micro := rfl
@[simp] theorem State.updCore_losses (s : State) (c : CoreIx) (f : Core → Core) : (s.updCore c f).losses = s.losses := rfl
@[simp] theorem State.updCore_atoms (s : State) (c : CoreIx) (f : Core → Core) : (s.updCore c f).atoms = s.atoms := rfl
@[simp] theorem State.updCore_replies (s : State) (c : CoreIx) (f : Core → Core) : (s.updCore c f).replies = s.replies := rfl
@[simp] theorem State.updCore_sent (s : State) (c : CoreIx) (f : Core → Core) : (s.updCore c f).sent = s.sent := rfl

/-! ### State.skip -/

@[simp] theorem State.skip_cur (s : State) : (s.skip).cur = s.cur := rfl
@[simp] theorem State.skip_agenda (s : State) : (s.skip).agenda = s.agenda := rfl
@[simp] theorem State.skip_inputs (s : State) : (s.skip).inputs = s.inputs := rfl
@[simp] theorem State.skip_cycle (s : State) : (s.skip).cycle = s.cycle := rfl
@[simp] theorem State.skip_choices (s : State) : (s.skip).choices = s.choices := rfl
@[simp] theorem State.skip_mem (s : State) : (s.skip).mem = s.mem := rfl
@[simp] theorem State.skip_astab (s : State) : (s.skip).astab = s.astab := rfl
@[simp] theorem State.skip_bartab (s : State) : (s.skip).bartab = s.bartab := rfl
@[simp] theorem State.skip_ctxtab (s : State) : (s.skip).ctxtab = s.ctxtab := rfl
@[simp] theorem State.skip_block (s : State) : (s.skip).block = s.block := rfl
@[simp] theorem State.skip_links (s : State) : (s.skip).links = s.links := rfl
@[simp] theorem State.skip_dv (s : State) : (s.skip).dv = s.dv := rfl
@[simp] theorem State.skip_repair (s : State) : (s.skip).repair = s.repair := rfl
@[simp] theorem State.skip_sites (s : State) : (s.skip).sites = s.sites := rfl
@[simp] theorem State.skip_tiles (s : State) : (s.skip).tiles = s.tiles := rfl
@[simp] theorem State.skip_regions (s : State) : (s.skip).regions = s.regions := rfl
@[simp] theorem State.skip_graphs (s : State) : (s.skip).graphs = s.graphs := rfl
@[simp] theorem State.skip_dist (s : State) : (s.skip).dist = s.dist := rfl
@[simp] theorem State.skip_colls (s : State) : (s.skip).colls = s.colls := rfl
@[simp] theorem State.skip_tcs (s : State) : (s.skip).tcs = s.tcs := rfl
@[simp] theorem State.skip_micro (s : State) : (s.skip).micro = s.micro := rfl
@[simp] theorem State.skip_losses (s : State) : (s.skip).losses = s.losses := rfl
@[simp] theorem State.skip_atoms (s : State) : (s.skip).atoms = s.atoms := rfl
@[simp] theorem State.skip_replies (s : State) : (s.skip).replies = s.replies := rfl
@[simp] theorem State.skip_sent (s : State) : (s.skip).sent = s.sent := rfl

/-! ### State.putByte -/

@[simp] theorem State.putByte_cur (s : State) (k : Nat) (b : Byte) : (s.putByte k b).cur = s.cur := rfl
@[simp] theorem State.putByte_agenda (s : State) (k : Nat) (b : Byte) : (s.putByte k b).agenda = s.agenda := rfl
@[simp] theorem State.putByte_inputs (s : State) (k : Nat) (b : Byte) : (s.putByte k b).inputs = s.inputs := rfl
@[simp] theorem State.putByte_cycle (s : State) (k : Nat) (b : Byte) : (s.putByte k b).cycle = s.cycle := rfl
@[simp] theorem State.putByte_choices (s : State) (k : Nat) (b : Byte) : (s.putByte k b).choices = s.choices := rfl
@[simp] theorem State.putByte_cores (s : State) (k : Nat) (b : Byte) : (s.putByte k b).cores = s.cores := rfl
@[simp] theorem State.putByte_astab (s : State) (k : Nat) (b : Byte) : (s.putByte k b).astab = s.astab := rfl
@[simp] theorem State.putByte_bartab (s : State) (k : Nat) (b : Byte) : (s.putByte k b).bartab = s.bartab := rfl
@[simp] theorem State.putByte_ctxtab (s : State) (k : Nat) (b : Byte) : (s.putByte k b).ctxtab = s.ctxtab := rfl
@[simp] theorem State.putByte_block (s : State) (k : Nat) (b : Byte) : (s.putByte k b).block = s.block := rfl
@[simp] theorem State.putByte_links (s : State) (k : Nat) (b : Byte) : (s.putByte k b).links = s.links := rfl
@[simp] theorem State.putByte_dv (s : State) (k : Nat) (b : Byte) : (s.putByte k b).dv = s.dv := rfl
@[simp] theorem State.putByte_repair (s : State) (k : Nat) (b : Byte) : (s.putByte k b).repair = s.repair := rfl
@[simp] theorem State.putByte_sites (s : State) (k : Nat) (b : Byte) : (s.putByte k b).sites = s.sites := rfl
@[simp] theorem State.putByte_tiles (s : State) (k : Nat) (b : Byte) : (s.putByte k b).tiles = s.tiles := rfl
@[simp] theorem State.putByte_regions (s : State) (k : Nat) (b : Byte) : (s.putByte k b).regions = s.regions := rfl
@[simp] theorem State.putByte_graphs (s : State) (k : Nat) (b : Byte) : (s.putByte k b).graphs = s.graphs := rfl
@[simp] theorem State.putByte_dist (s : State) (k : Nat) (b : Byte) : (s.putByte k b).dist = s.dist := rfl
@[simp] theorem State.putByte_colls (s : State) (k : Nat) (b : Byte) : (s.putByte k b).colls = s.colls := rfl
@[simp] theorem State.putByte_tcs (s : State) (k : Nat) (b : Byte) : (s.putByte k b).tcs = s.tcs := rfl
@[simp] theorem State.putByte_micro (s : State) (k : Nat) (b : Byte) : (s.putByte k b).micro = s.micro := rfl
@[simp] theorem State.putByte_losses (s : State) (k : Nat) (b : Byte) : (s.putByte k b).losses = s.losses := rfl
@[simp] theorem State.putByte_atoms (s : State) (k : Nat) (b : Byte) : (s.putByte k b).atoms = s.atoms := rfl
@[simp] theorem State.putByte_replies (s : State) (k : Nat) (b : Byte) : (s.putByte k b).replies = s.replies := rfl
@[simp] theorem State.putByte_sent (s : State) (k : Nat) (b : Byte) : (s.putByte k b).sent = s.sent := rfl

/-! ### State.writeAstab -/

@[simp] theorem State.writeAstab_cur (s : State) (v : Word) : (s.writeAstab v).cur = s.cur := rfl
@[simp] theorem State.writeAstab_agenda (s : State) (v : Word) : (s.writeAstab v).agenda = s.agenda := rfl
@[simp] theorem State.writeAstab_inputs (s : State) (v : Word) : (s.writeAstab v).inputs = s.inputs := rfl
@[simp] theorem State.writeAstab_cycle (s : State) (v : Word) : (s.writeAstab v).cycle = s.cycle := rfl
@[simp] theorem State.writeAstab_choices (s : State) (v : Word) : (s.writeAstab v).choices = s.choices := rfl
@[simp] theorem State.writeAstab_cores (s : State) (v : Word) : (s.writeAstab v).cores = s.cores := rfl
@[simp] theorem State.writeAstab_mem (s : State) (v : Word) : (s.writeAstab v).mem = s.mem := rfl
@[simp] theorem State.writeAstab_bartab (s : State) (v : Word) : (s.writeAstab v).bartab = s.bartab := rfl
@[simp] theorem State.writeAstab_ctxtab (s : State) (v : Word) : (s.writeAstab v).ctxtab = s.ctxtab := rfl
@[simp] theorem State.writeAstab_block (s : State) (v : Word) : (s.writeAstab v).block = s.block := rfl
@[simp] theorem State.writeAstab_links (s : State) (v : Word) : (s.writeAstab v).links = s.links := rfl
@[simp] theorem State.writeAstab_dv (s : State) (v : Word) : (s.writeAstab v).dv = s.dv := rfl
@[simp] theorem State.writeAstab_repair (s : State) (v : Word) : (s.writeAstab v).repair = s.repair := rfl
@[simp] theorem State.writeAstab_sites (s : State) (v : Word) : (s.writeAstab v).sites = s.sites := rfl
@[simp] theorem State.writeAstab_tiles (s : State) (v : Word) : (s.writeAstab v).tiles = s.tiles := rfl
@[simp] theorem State.writeAstab_regions (s : State) (v : Word) : (s.writeAstab v).regions = s.regions := rfl
@[simp] theorem State.writeAstab_graphs (s : State) (v : Word) : (s.writeAstab v).graphs = s.graphs := rfl
@[simp] theorem State.writeAstab_dist (s : State) (v : Word) : (s.writeAstab v).dist = s.dist := rfl
@[simp] theorem State.writeAstab_colls (s : State) (v : Word) : (s.writeAstab v).colls = s.colls := rfl
@[simp] theorem State.writeAstab_tcs (s : State) (v : Word) : (s.writeAstab v).tcs = s.tcs := rfl
@[simp] theorem State.writeAstab_micro (s : State) (v : Word) : (s.writeAstab v).micro = s.micro := rfl
@[simp] theorem State.writeAstab_losses (s : State) (v : Word) : (s.writeAstab v).losses = s.losses := rfl
@[simp] theorem State.writeAstab_atoms (s : State) (v : Word) : (s.writeAstab v).atoms = s.atoms := rfl
@[simp] theorem State.writeAstab_replies (s : State) (v : Word) : (s.writeAstab v).replies = s.replies := rfl
@[simp] theorem State.writeAstab_sent (s : State) (v : Word) : (s.writeAstab v).sent = s.sent := rfl

/-! ### State.writeBartab -/

@[simp] theorem State.writeBartab_cur (s : State) (v : Word) : (s.writeBartab v).cur = s.cur := by unfold State.writeBartab; rfl
@[simp] theorem State.writeBartab_agenda (s : State) (v : Word) : (s.writeBartab v).agenda = s.agenda := by unfold State.writeBartab; rfl
@[simp] theorem State.writeBartab_inputs (s : State) (v : Word) : (s.writeBartab v).inputs = s.inputs := by unfold State.writeBartab; rfl
@[simp] theorem State.writeBartab_cycle (s : State) (v : Word) : (s.writeBartab v).cycle = s.cycle := by unfold State.writeBartab; rfl
@[simp] theorem State.writeBartab_choices (s : State) (v : Word) : (s.writeBartab v).choices = s.choices := by unfold State.writeBartab; rfl
@[simp] theorem State.writeBartab_cores (s : State) (v : Word) : (s.writeBartab v).cores = s.cores := by unfold State.writeBartab; rfl
@[simp] theorem State.writeBartab_mem (s : State) (v : Word) : (s.writeBartab v).mem = s.mem := by unfold State.writeBartab; rfl
@[simp] theorem State.writeBartab_astab (s : State) (v : Word) : (s.writeBartab v).astab = s.astab := by unfold State.writeBartab; rfl
@[simp] theorem State.writeBartab_ctxtab (s : State) (v : Word) : (s.writeBartab v).ctxtab = s.ctxtab := by unfold State.writeBartab; rfl
@[simp] theorem State.writeBartab_block (s : State) (v : Word) : (s.writeBartab v).block = s.block := by unfold State.writeBartab; rfl
@[simp] theorem State.writeBartab_links (s : State) (v : Word) : (s.writeBartab v).links = s.links := by unfold State.writeBartab; rfl
@[simp] theorem State.writeBartab_dv (s : State) (v : Word) : (s.writeBartab v).dv = s.dv := by unfold State.writeBartab; rfl
@[simp] theorem State.writeBartab_repair (s : State) (v : Word) : (s.writeBartab v).repair = s.repair := by unfold State.writeBartab; rfl
@[simp] theorem State.writeBartab_sites (s : State) (v : Word) : (s.writeBartab v).sites = s.sites := by unfold State.writeBartab; rfl
@[simp] theorem State.writeBartab_tiles (s : State) (v : Word) : (s.writeBartab v).tiles = s.tiles := by unfold State.writeBartab; rfl
@[simp] theorem State.writeBartab_regions (s : State) (v : Word) : (s.writeBartab v).regions = s.regions := by unfold State.writeBartab; rfl
@[simp] theorem State.writeBartab_graphs (s : State) (v : Word) : (s.writeBartab v).graphs = s.graphs := by unfold State.writeBartab; rfl
@[simp] theorem State.writeBartab_dist (s : State) (v : Word) : (s.writeBartab v).dist = s.dist := by unfold State.writeBartab; rfl
@[simp] theorem State.writeBartab_colls (s : State) (v : Word) : (s.writeBartab v).colls = s.colls := by unfold State.writeBartab; rfl
@[simp] theorem State.writeBartab_tcs (s : State) (v : Word) : (s.writeBartab v).tcs = s.tcs := by unfold State.writeBartab; rfl
@[simp] theorem State.writeBartab_micro (s : State) (v : Word) : (s.writeBartab v).micro = s.micro := by unfold State.writeBartab; rfl
@[simp] theorem State.writeBartab_losses (s : State) (v : Word) : (s.writeBartab v).losses = s.losses := by unfold State.writeBartab; rfl
@[simp] theorem State.writeBartab_atoms (s : State) (v : Word) : (s.writeBartab v).atoms = s.atoms := by unfold State.writeBartab; rfl
@[simp] theorem State.writeBartab_replies (s : State) (v : Word) : (s.writeBartab v).replies = s.replies := by unfold State.writeBartab; rfl
@[simp] theorem State.writeBartab_sent (s : State) (v : Word) : (s.writeBartab v).sent = s.sent := by unfold State.writeBartab; rfl

/-! ### State.writeCtxtab -/

@[simp] theorem State.writeCtxtab_cur (s : State) (v : Word) : (s.writeCtxtab v).cur = s.cur := rfl
@[simp] theorem State.writeCtxtab_agenda (s : State) (v : Word) : (s.writeCtxtab v).agenda = s.agenda := rfl
@[simp] theorem State.writeCtxtab_inputs (s : State) (v : Word) : (s.writeCtxtab v).inputs = s.inputs := rfl
@[simp] theorem State.writeCtxtab_cycle (s : State) (v : Word) : (s.writeCtxtab v).cycle = s.cycle := rfl
@[simp] theorem State.writeCtxtab_choices (s : State) (v : Word) : (s.writeCtxtab v).choices = s.choices := rfl
@[simp] theorem State.writeCtxtab_cores (s : State) (v : Word) : (s.writeCtxtab v).cores = s.cores := rfl
@[simp] theorem State.writeCtxtab_mem (s : State) (v : Word) : (s.writeCtxtab v).mem = s.mem := rfl
@[simp] theorem State.writeCtxtab_astab (s : State) (v : Word) : (s.writeCtxtab v).astab = s.astab := rfl
@[simp] theorem State.writeCtxtab_bartab (s : State) (v : Word) : (s.writeCtxtab v).bartab = s.bartab := rfl
@[simp] theorem State.writeCtxtab_block (s : State) (v : Word) : (s.writeCtxtab v).block = s.block := rfl
@[simp] theorem State.writeCtxtab_links (s : State) (v : Word) : (s.writeCtxtab v).links = s.links := rfl
@[simp] theorem State.writeCtxtab_dv (s : State) (v : Word) : (s.writeCtxtab v).dv = s.dv := rfl
@[simp] theorem State.writeCtxtab_repair (s : State) (v : Word) : (s.writeCtxtab v).repair = s.repair := rfl
@[simp] theorem State.writeCtxtab_sites (s : State) (v : Word) : (s.writeCtxtab v).sites = s.sites := rfl
@[simp] theorem State.writeCtxtab_tiles (s : State) (v : Word) : (s.writeCtxtab v).tiles = s.tiles := rfl
@[simp] theorem State.writeCtxtab_regions (s : State) (v : Word) : (s.writeCtxtab v).regions = s.regions := rfl
@[simp] theorem State.writeCtxtab_graphs (s : State) (v : Word) : (s.writeCtxtab v).graphs = s.graphs := rfl
@[simp] theorem State.writeCtxtab_dist (s : State) (v : Word) : (s.writeCtxtab v).dist = s.dist := rfl
@[simp] theorem State.writeCtxtab_colls (s : State) (v : Word) : (s.writeCtxtab v).colls = s.colls := rfl
@[simp] theorem State.writeCtxtab_tcs (s : State) (v : Word) : (s.writeCtxtab v).tcs = s.tcs := rfl
@[simp] theorem State.writeCtxtab_micro (s : State) (v : Word) : (s.writeCtxtab v).micro = s.micro := rfl
@[simp] theorem State.writeCtxtab_losses (s : State) (v : Word) : (s.writeCtxtab v).losses = s.losses := rfl
@[simp] theorem State.writeCtxtab_atoms (s : State) (v : Word) : (s.writeCtxtab v).atoms = s.atoms := rfl
@[simp] theorem State.writeCtxtab_replies (s : State) (v : Word) : (s.writeCtxtab v).replies = s.replies := rfl
@[simp] theorem State.writeCtxtab_sent (s : State) (v : Word) : (s.writeCtxtab v).sent = s.sent := rfl

/-! ### State.setSite -/

@[simp] theorem State.setSite_cur (s : State) (e : Elt) (x : SitePlane) : (s.setSite e x).cur = s.cur := rfl
@[simp] theorem State.setSite_agenda (s : State) (e : Elt) (x : SitePlane) : (s.setSite e x).agenda = s.agenda := rfl
@[simp] theorem State.setSite_inputs (s : State) (e : Elt) (x : SitePlane) : (s.setSite e x).inputs = s.inputs := rfl
@[simp] theorem State.setSite_cycle (s : State) (e : Elt) (x : SitePlane) : (s.setSite e x).cycle = s.cycle := rfl
@[simp] theorem State.setSite_choices (s : State) (e : Elt) (x : SitePlane) : (s.setSite e x).choices = s.choices := rfl
@[simp] theorem State.setSite_cores (s : State) (e : Elt) (x : SitePlane) : (s.setSite e x).cores = s.cores := rfl
@[simp] theorem State.setSite_mem (s : State) (e : Elt) (x : SitePlane) : (s.setSite e x).mem = s.mem := rfl
@[simp] theorem State.setSite_astab (s : State) (e : Elt) (x : SitePlane) : (s.setSite e x).astab = s.astab := rfl
@[simp] theorem State.setSite_bartab (s : State) (e : Elt) (x : SitePlane) : (s.setSite e x).bartab = s.bartab := rfl
@[simp] theorem State.setSite_ctxtab (s : State) (e : Elt) (x : SitePlane) : (s.setSite e x).ctxtab = s.ctxtab := rfl
@[simp] theorem State.setSite_block (s : State) (e : Elt) (x : SitePlane) : (s.setSite e x).block = s.block := rfl
@[simp] theorem State.setSite_links (s : State) (e : Elt) (x : SitePlane) : (s.setSite e x).links = s.links := rfl
@[simp] theorem State.setSite_dv (s : State) (e : Elt) (x : SitePlane) : (s.setSite e x).dv = s.dv := rfl
@[simp] theorem State.setSite_repair (s : State) (e : Elt) (x : SitePlane) : (s.setSite e x).repair = s.repair := rfl
@[simp] theorem State.setSite_tiles (s : State) (e : Elt) (x : SitePlane) : (s.setSite e x).tiles = s.tiles := rfl
@[simp] theorem State.setSite_regions (s : State) (e : Elt) (x : SitePlane) : (s.setSite e x).regions = s.regions := rfl
@[simp] theorem State.setSite_graphs (s : State) (e : Elt) (x : SitePlane) : (s.setSite e x).graphs = s.graphs := rfl
@[simp] theorem State.setSite_dist (s : State) (e : Elt) (x : SitePlane) : (s.setSite e x).dist = s.dist := rfl
@[simp] theorem State.setSite_colls (s : State) (e : Elt) (x : SitePlane) : (s.setSite e x).colls = s.colls := rfl
@[simp] theorem State.setSite_tcs (s : State) (e : Elt) (x : SitePlane) : (s.setSite e x).tcs = s.tcs := rfl
@[simp] theorem State.setSite_micro (s : State) (e : Elt) (x : SitePlane) : (s.setSite e x).micro = s.micro := rfl
@[simp] theorem State.setSite_losses (s : State) (e : Elt) (x : SitePlane) : (s.setSite e x).losses = s.losses := rfl
@[simp] theorem State.setSite_atoms (s : State) (e : Elt) (x : SitePlane) : (s.setSite e x).atoms = s.atoms := rfl
@[simp] theorem State.setSite_replies (s : State) (e : Elt) (x : SitePlane) : (s.setSite e x).replies = s.replies := rfl
@[simp] theorem State.setSite_sent (s : State) (e : Elt) (x : SitePlane) : (s.setSite e x).sent = s.sent := rfl

/-! ### State.setRegion -/

@[simp] theorem State.setRegion_cur (s : State) (c : CoreIx) (r : Fin 16) (x : Region) : (s.setRegion c r x).cur = s.cur := rfl
@[simp] theorem State.setRegion_agenda (s : State) (c : CoreIx) (r : Fin 16) (x : Region) : (s.setRegion c r x).agenda = s.agenda := rfl
@[simp] theorem State.setRegion_inputs (s : State) (c : CoreIx) (r : Fin 16) (x : Region) : (s.setRegion c r x).inputs = s.inputs := rfl
@[simp] theorem State.setRegion_cycle (s : State) (c : CoreIx) (r : Fin 16) (x : Region) : (s.setRegion c r x).cycle = s.cycle := rfl
@[simp] theorem State.setRegion_choices (s : State) (c : CoreIx) (r : Fin 16) (x : Region) : (s.setRegion c r x).choices = s.choices := rfl
@[simp] theorem State.setRegion_cores (s : State) (c : CoreIx) (r : Fin 16) (x : Region) : (s.setRegion c r x).cores = s.cores := rfl
@[simp] theorem State.setRegion_mem (s : State) (c : CoreIx) (r : Fin 16) (x : Region) : (s.setRegion c r x).mem = s.mem := rfl
@[simp] theorem State.setRegion_astab (s : State) (c : CoreIx) (r : Fin 16) (x : Region) : (s.setRegion c r x).astab = s.astab := rfl
@[simp] theorem State.setRegion_bartab (s : State) (c : CoreIx) (r : Fin 16) (x : Region) : (s.setRegion c r x).bartab = s.bartab := rfl
@[simp] theorem State.setRegion_ctxtab (s : State) (c : CoreIx) (r : Fin 16) (x : Region) : (s.setRegion c r x).ctxtab = s.ctxtab := rfl
@[simp] theorem State.setRegion_block (s : State) (c : CoreIx) (r : Fin 16) (x : Region) : (s.setRegion c r x).block = s.block := rfl
@[simp] theorem State.setRegion_links (s : State) (c : CoreIx) (r : Fin 16) (x : Region) : (s.setRegion c r x).links = s.links := rfl
@[simp] theorem State.setRegion_dv (s : State) (c : CoreIx) (r : Fin 16) (x : Region) : (s.setRegion c r x).dv = s.dv := rfl
@[simp] theorem State.setRegion_repair (s : State) (c : CoreIx) (r : Fin 16) (x : Region) : (s.setRegion c r x).repair = s.repair := rfl
@[simp] theorem State.setRegion_sites (s : State) (c : CoreIx) (r : Fin 16) (x : Region) : (s.setRegion c r x).sites = s.sites := rfl
@[simp] theorem State.setRegion_tiles (s : State) (c : CoreIx) (r : Fin 16) (x : Region) : (s.setRegion c r x).tiles = s.tiles := rfl
@[simp] theorem State.setRegion_graphs (s : State) (c : CoreIx) (r : Fin 16) (x : Region) : (s.setRegion c r x).graphs = s.graphs := rfl
@[simp] theorem State.setRegion_dist (s : State) (c : CoreIx) (r : Fin 16) (x : Region) : (s.setRegion c r x).dist = s.dist := rfl
@[simp] theorem State.setRegion_colls (s : State) (c : CoreIx) (r : Fin 16) (x : Region) : (s.setRegion c r x).colls = s.colls := rfl
@[simp] theorem State.setRegion_tcs (s : State) (c : CoreIx) (r : Fin 16) (x : Region) : (s.setRegion c r x).tcs = s.tcs := rfl
@[simp] theorem State.setRegion_micro (s : State) (c : CoreIx) (r : Fin 16) (x : Region) : (s.setRegion c r x).micro = s.micro := rfl
@[simp] theorem State.setRegion_losses (s : State) (c : CoreIx) (r : Fin 16) (x : Region) : (s.setRegion c r x).losses = s.losses := rfl
@[simp] theorem State.setRegion_atoms (s : State) (c : CoreIx) (r : Fin 16) (x : Region) : (s.setRegion c r x).atoms = s.atoms := rfl
@[simp] theorem State.setRegion_replies (s : State) (c : CoreIx) (r : Fin 16) (x : Region) : (s.setRegion c r x).replies = s.replies := rfl
@[simp] theorem State.setRegion_sent (s : State) (c : CoreIx) (r : Fin 16) (x : Region) : (s.setRegion c r x).sent = s.sent := rfl

/-! ### State.setGraph -/

@[simp] theorem State.setGraph_cur (s : State) (g : GraphIx) (x : Graph) : (s.setGraph g x).cur = s.cur := rfl
@[simp] theorem State.setGraph_agenda (s : State) (g : GraphIx) (x : Graph) : (s.setGraph g x).agenda = s.agenda := rfl
@[simp] theorem State.setGraph_inputs (s : State) (g : GraphIx) (x : Graph) : (s.setGraph g x).inputs = s.inputs := rfl
@[simp] theorem State.setGraph_cycle (s : State) (g : GraphIx) (x : Graph) : (s.setGraph g x).cycle = s.cycle := rfl
@[simp] theorem State.setGraph_choices (s : State) (g : GraphIx) (x : Graph) : (s.setGraph g x).choices = s.choices := rfl
@[simp] theorem State.setGraph_cores (s : State) (g : GraphIx) (x : Graph) : (s.setGraph g x).cores = s.cores := rfl
@[simp] theorem State.setGraph_mem (s : State) (g : GraphIx) (x : Graph) : (s.setGraph g x).mem = s.mem := rfl
@[simp] theorem State.setGraph_astab (s : State) (g : GraphIx) (x : Graph) : (s.setGraph g x).astab = s.astab := rfl
@[simp] theorem State.setGraph_bartab (s : State) (g : GraphIx) (x : Graph) : (s.setGraph g x).bartab = s.bartab := rfl
@[simp] theorem State.setGraph_ctxtab (s : State) (g : GraphIx) (x : Graph) : (s.setGraph g x).ctxtab = s.ctxtab := rfl
@[simp] theorem State.setGraph_block (s : State) (g : GraphIx) (x : Graph) : (s.setGraph g x).block = s.block := rfl
@[simp] theorem State.setGraph_links (s : State) (g : GraphIx) (x : Graph) : (s.setGraph g x).links = s.links := rfl
@[simp] theorem State.setGraph_dv (s : State) (g : GraphIx) (x : Graph) : (s.setGraph g x).dv = s.dv := rfl
@[simp] theorem State.setGraph_repair (s : State) (g : GraphIx) (x : Graph) : (s.setGraph g x).repair = s.repair := rfl
@[simp] theorem State.setGraph_sites (s : State) (g : GraphIx) (x : Graph) : (s.setGraph g x).sites = s.sites := rfl
@[simp] theorem State.setGraph_tiles (s : State) (g : GraphIx) (x : Graph) : (s.setGraph g x).tiles = s.tiles := rfl
@[simp] theorem State.setGraph_regions (s : State) (g : GraphIx) (x : Graph) : (s.setGraph g x).regions = s.regions := rfl
@[simp] theorem State.setGraph_dist (s : State) (g : GraphIx) (x : Graph) : (s.setGraph g x).dist = s.dist := rfl
@[simp] theorem State.setGraph_colls (s : State) (g : GraphIx) (x : Graph) : (s.setGraph g x).colls = s.colls := rfl
@[simp] theorem State.setGraph_tcs (s : State) (g : GraphIx) (x : Graph) : (s.setGraph g x).tcs = s.tcs := rfl
@[simp] theorem State.setGraph_micro (s : State) (g : GraphIx) (x : Graph) : (s.setGraph g x).micro = s.micro := rfl
@[simp] theorem State.setGraph_losses (s : State) (g : GraphIx) (x : Graph) : (s.setGraph g x).losses = s.losses := rfl
@[simp] theorem State.setGraph_atoms (s : State) (g : GraphIx) (x : Graph) : (s.setGraph g x).atoms = s.atoms := rfl
@[simp] theorem State.setGraph_replies (s : State) (g : GraphIx) (x : Graph) : (s.setGraph g x).replies = s.replies := rfl
@[simp] theorem State.setGraph_sent (s : State) (g : GraphIx) (x : Graph) : (s.setGraph g x).sent = s.sent := rfl

/-! ### State.updGraph -/

@[simp] theorem State.updGraph_cur (s : State) (g : GraphIx) (f : Graph → Graph) : (s.updGraph g f).cur = s.cur := rfl
@[simp] theorem State.updGraph_agenda (s : State) (g : GraphIx) (f : Graph → Graph) : (s.updGraph g f).agenda = s.agenda := rfl
@[simp] theorem State.updGraph_inputs (s : State) (g : GraphIx) (f : Graph → Graph) : (s.updGraph g f).inputs = s.inputs := rfl
@[simp] theorem State.updGraph_cycle (s : State) (g : GraphIx) (f : Graph → Graph) : (s.updGraph g f).cycle = s.cycle := rfl
@[simp] theorem State.updGraph_choices (s : State) (g : GraphIx) (f : Graph → Graph) : (s.updGraph g f).choices = s.choices := rfl
@[simp] theorem State.updGraph_cores (s : State) (g : GraphIx) (f : Graph → Graph) : (s.updGraph g f).cores = s.cores := rfl
@[simp] theorem State.updGraph_mem (s : State) (g : GraphIx) (f : Graph → Graph) : (s.updGraph g f).mem = s.mem := rfl
@[simp] theorem State.updGraph_astab (s : State) (g : GraphIx) (f : Graph → Graph) : (s.updGraph g f).astab = s.astab := rfl
@[simp] theorem State.updGraph_bartab (s : State) (g : GraphIx) (f : Graph → Graph) : (s.updGraph g f).bartab = s.bartab := rfl
@[simp] theorem State.updGraph_ctxtab (s : State) (g : GraphIx) (f : Graph → Graph) : (s.updGraph g f).ctxtab = s.ctxtab := rfl
@[simp] theorem State.updGraph_block (s : State) (g : GraphIx) (f : Graph → Graph) : (s.updGraph g f).block = s.block := rfl
@[simp] theorem State.updGraph_links (s : State) (g : GraphIx) (f : Graph → Graph) : (s.updGraph g f).links = s.links := rfl
@[simp] theorem State.updGraph_dv (s : State) (g : GraphIx) (f : Graph → Graph) : (s.updGraph g f).dv = s.dv := rfl
@[simp] theorem State.updGraph_repair (s : State) (g : GraphIx) (f : Graph → Graph) : (s.updGraph g f).repair = s.repair := rfl
@[simp] theorem State.updGraph_sites (s : State) (g : GraphIx) (f : Graph → Graph) : (s.updGraph g f).sites = s.sites := rfl
@[simp] theorem State.updGraph_tiles (s : State) (g : GraphIx) (f : Graph → Graph) : (s.updGraph g f).tiles = s.tiles := rfl
@[simp] theorem State.updGraph_regions (s : State) (g : GraphIx) (f : Graph → Graph) : (s.updGraph g f).regions = s.regions := rfl
@[simp] theorem State.updGraph_dist (s : State) (g : GraphIx) (f : Graph → Graph) : (s.updGraph g f).dist = s.dist := rfl
@[simp] theorem State.updGraph_colls (s : State) (g : GraphIx) (f : Graph → Graph) : (s.updGraph g f).colls = s.colls := rfl
@[simp] theorem State.updGraph_tcs (s : State) (g : GraphIx) (f : Graph → Graph) : (s.updGraph g f).tcs = s.tcs := rfl
@[simp] theorem State.updGraph_micro (s : State) (g : GraphIx) (f : Graph → Graph) : (s.updGraph g f).micro = s.micro := rfl
@[simp] theorem State.updGraph_losses (s : State) (g : GraphIx) (f : Graph → Graph) : (s.updGraph g f).losses = s.losses := rfl
@[simp] theorem State.updGraph_atoms (s : State) (g : GraphIx) (f : Graph → Graph) : (s.updGraph g f).atoms = s.atoms := rfl
@[simp] theorem State.updGraph_replies (s : State) (g : GraphIx) (f : Graph → Graph) : (s.updGraph g f).replies = s.replies := rfl
@[simp] theorem State.updGraph_sent (s : State) (g : GraphIx) (f : Graph → Graph) : (s.updGraph g f).sent = s.sent := rfl

/-! ### State.choose -/

@[simp] theorem State.choose_cur (s : State) (n : Nat) : (s.choose n).2.cur = s.cur := rfl
@[simp] theorem State.choose_agenda (s : State) (n : Nat) : (s.choose n).2.agenda = s.agenda := rfl
@[simp] theorem State.choose_inputs (s : State) (n : Nat) : (s.choose n).2.inputs = s.inputs := rfl
@[simp] theorem State.choose_cycle (s : State) (n : Nat) : (s.choose n).2.cycle = s.cycle := rfl
@[simp] theorem State.choose_cores (s : State) (n : Nat) : (s.choose n).2.cores = s.cores := rfl
@[simp] theorem State.choose_mem (s : State) (n : Nat) : (s.choose n).2.mem = s.mem := rfl
@[simp] theorem State.choose_astab (s : State) (n : Nat) : (s.choose n).2.astab = s.astab := rfl
@[simp] theorem State.choose_bartab (s : State) (n : Nat) : (s.choose n).2.bartab = s.bartab := rfl
@[simp] theorem State.choose_ctxtab (s : State) (n : Nat) : (s.choose n).2.ctxtab = s.ctxtab := rfl
@[simp] theorem State.choose_block (s : State) (n : Nat) : (s.choose n).2.block = s.block := rfl
@[simp] theorem State.choose_links (s : State) (n : Nat) : (s.choose n).2.links = s.links := rfl
@[simp] theorem State.choose_dv (s : State) (n : Nat) : (s.choose n).2.dv = s.dv := rfl
@[simp] theorem State.choose_repair (s : State) (n : Nat) : (s.choose n).2.repair = s.repair := rfl
@[simp] theorem State.choose_sites (s : State) (n : Nat) : (s.choose n).2.sites = s.sites := rfl
@[simp] theorem State.choose_tiles (s : State) (n : Nat) : (s.choose n).2.tiles = s.tiles := rfl
@[simp] theorem State.choose_regions (s : State) (n : Nat) : (s.choose n).2.regions = s.regions := rfl
@[simp] theorem State.choose_graphs (s : State) (n : Nat) : (s.choose n).2.graphs = s.graphs := rfl
@[simp] theorem State.choose_dist (s : State) (n : Nat) : (s.choose n).2.dist = s.dist := rfl
@[simp] theorem State.choose_colls (s : State) (n : Nat) : (s.choose n).2.colls = s.colls := rfl
@[simp] theorem State.choose_tcs (s : State) (n : Nat) : (s.choose n).2.tcs = s.tcs := rfl
@[simp] theorem State.choose_micro (s : State) (n : Nat) : (s.choose n).2.micro = s.micro := rfl
@[simp] theorem State.choose_losses (s : State) (n : Nat) : (s.choose n).2.losses = s.losses := rfl
@[simp] theorem State.choose_atoms (s : State) (n : Nat) : (s.choose n).2.atoms = s.atoms := rfl
@[simp] theorem State.choose_replies (s : State) (n : Nat) : (s.choose n).2.replies = s.replies := rfl
@[simp] theorem State.choose_sent (s : State) (n : Nat) : (s.choose n).2.sent = s.sent := rfl
@[simp] theorem State.choose_choices (s : State) (n : Nat) : (s.choose n).2.choices = s.choices + 1 := rfl

/-! ### Core.setPc -/

@[simp] theorem Core.setPc_run (k : Core) (v : Word) : (k.setPc v).run = k.run := rfl
@[simp] theorem Core.setPc_x (k : Core) (v : Word) : (k.setPc v).x = k.x := rfl
@[simp] theorem Core.setPc_status (k : Core) (v : Word) : (k.setPc v).status = k.status := rfl
@[simp] theorem Core.setPc_tvec (k : Core) (v : Word) : (k.setPc v).tvec = k.tvec := rfl
@[simp] theorem Core.setPc_tcause (k : Core) (v : Word) : (k.setPc v).tcause = k.tcause := rfl
@[simp] theorem Core.setPc_tval (k : Core) (v : Word) : (k.setPc v).tval = k.tval := rfl
@[simp] theorem Core.setPc_epc (k : Core) (v : Word) : (k.setPc v).epc = k.epc := rfl
@[simp] theorem Core.setPc_clock (k : Core) (v : Word) : (k.setPc v).clock = k.clock := rfl
@[simp] theorem Core.setPc_clockNext (k : Core) (v : Word) : (k.setPc v).clockNext = k.clockNext := rfl
@[simp] theorem Core.setPc_quantum (k : Core) (v : Word) : (k.setPc v).quantum = k.quantum := rfl
@[simp] theorem Core.setPc_cmod (k : Core) (v : Word) : (k.setPc v).cmod = k.cmod := rfl
@[simp] theorem Core.setPc_asid (k : Core) (v : Word) : (k.setPc v).asid = k.asid := rfl
@[simp] theorem Core.setPc_cvtev (k : Core) (v : Word) : (k.setPc v).cvtev = k.cvtev := rfl
@[simp] theorem Core.setPc_frec (k : Core) (v : Word) : (k.setPc v).frec = k.frec := rfl
@[simp] theorem Core.setPc_drainb (k : Core) (v : Word) : (k.setPc v).drainb = k.drainb := rfl
@[simp] theorem Core.setPc_wait (k : Core) (v : Word) : (k.setPc v).wait = k.wait := rfl
@[simp] theorem Core.setPc_istale (k : Core) (v : Word) : (k.setPc v).istale = k.istale := rfl
@[simp] theorem Core.setPc_dtlb (k : Core) (v : Word) : (k.setPc v).dtlb = k.dtlb := rfl
@[simp] theorem Core.setPc_itlb (k : Core) (v : Word) : (k.setPc v).itlb = k.itlb := rfl
@[simp] theorem Core.setPc_queues (k : Core) (v : Word) : (k.setPc v).queues = k.queues := rfl
@[simp] theorem Core.setPc_handlers (k : Core) (v : Word) : (k.setPc v).handlers = k.handlers := rfl
@[simp] theorem Core.setPc_barriers (k : Core) (v : Word) : (k.setPc v).barriers = k.barriers := rfl
@[simp] theorem Core.setPc_pending (k : Core) (v : Word) : (k.setPc v).pending = k.pending := rfl
@[simp] theorem Core.setPc_dispatch (k : Core) (v : Word) : (k.setPc v).dispatch = k.dispatch := rfl
@[simp] theorem Core.setPc_atomId (k : Core) (v : Word) : (k.setPc v).atomId = k.atomId := rfl
@[simp] theorem Core.setPc_spoiled (k : Core) (v : Word) : (k.setPc v).spoiled = k.spoiled := rfl

/-! ### Core.enter -/

@[simp] theorem Core.enter_run (k : Core) (e : Word) (c : Byte) (i : Bool) (v t : Word) : (k.enter e c i v t).run = k.run := rfl
@[simp] theorem Core.enter_x (k : Core) (e : Word) (c : Byte) (i : Bool) (v t : Word) : (k.enter e c i v t).x = k.x := rfl
@[simp] theorem Core.enter_tvec (k : Core) (e : Word) (c : Byte) (i : Bool) (v t : Word) : (k.enter e c i v t).tvec = k.tvec := rfl
@[simp] theorem Core.enter_clock (k : Core) (e : Word) (c : Byte) (i : Bool) (v t : Word) : (k.enter e c i v t).clock = k.clock := rfl
@[simp] theorem Core.enter_clockNext (k : Core) (e : Word) (c : Byte) (i : Bool) (v t : Word) : (k.enter e c i v t).clockNext = k.clockNext := rfl
@[simp] theorem Core.enter_quantum (k : Core) (e : Word) (c : Byte) (i : Bool) (v t : Word) : (k.enter e c i v t).quantum = k.quantum := rfl
@[simp] theorem Core.enter_cmod (k : Core) (e : Word) (c : Byte) (i : Bool) (v t : Word) : (k.enter e c i v t).cmod = k.cmod := rfl
@[simp] theorem Core.enter_asid (k : Core) (e : Word) (c : Byte) (i : Bool) (v t : Word) : (k.enter e c i v t).asid = k.asid := rfl
@[simp] theorem Core.enter_cvtev (k : Core) (e : Word) (c : Byte) (i : Bool) (v t : Word) : (k.enter e c i v t).cvtev = k.cvtev := rfl
@[simp] theorem Core.enter_frec (k : Core) (e : Word) (c : Byte) (i : Bool) (v t : Word) : (k.enter e c i v t).frec = k.frec := rfl
@[simp] theorem Core.enter_drainb (k : Core) (e : Word) (c : Byte) (i : Bool) (v t : Word) : (k.enter e c i v t).drainb = k.drainb := rfl
@[simp] theorem Core.enter_wait (k : Core) (e : Word) (c : Byte) (i : Bool) (v t : Word) : (k.enter e c i v t).wait = k.wait := rfl
@[simp] theorem Core.enter_istale (k : Core) (e : Word) (c : Byte) (i : Bool) (v t : Word) : (k.enter e c i v t).istale = k.istale := rfl
@[simp] theorem Core.enter_dtlb (k : Core) (e : Word) (c : Byte) (i : Bool) (v t : Word) : (k.enter e c i v t).dtlb = k.dtlb := rfl
@[simp] theorem Core.enter_itlb (k : Core) (e : Word) (c : Byte) (i : Bool) (v t : Word) : (k.enter e c i v t).itlb = k.itlb := rfl
@[simp] theorem Core.enter_queues (k : Core) (e : Word) (c : Byte) (i : Bool) (v t : Word) : (k.enter e c i v t).queues = k.queues := rfl
@[simp] theorem Core.enter_handlers (k : Core) (e : Word) (c : Byte) (i : Bool) (v t : Word) : (k.enter e c i v t).handlers = k.handlers := rfl
@[simp] theorem Core.enter_barriers (k : Core) (e : Word) (c : Byte) (i : Bool) (v t : Word) : (k.enter e c i v t).barriers = k.barriers := rfl
@[simp] theorem Core.enter_pending (k : Core) (e : Word) (c : Byte) (i : Bool) (v t : Word) : (k.enter e c i v t).pending = k.pending := rfl
@[simp] theorem Core.enter_dispatch (k : Core) (e : Word) (c : Byte) (i : Bool) (v t : Word) : (k.enter e c i v t).dispatch = k.dispatch := rfl
@[simp] theorem Core.enter_atomId (k : Core) (e : Word) (c : Byte) (i : Bool) (v t : Word) : (k.enter e c i v t).atomId = k.atomId := rfl
@[simp] theorem Core.enter_spoiled (k : Core) (e : Word) (c : Byte) (i : Bool) (v t : Word) : (k.enter e c i v t).spoiled = k.spoiled := rfl

/-! ### Core.ret -/

@[simp] theorem Core.ret_run (k : Core) : (k.ret).run = k.run := rfl
@[simp] theorem Core.ret_x (k : Core) : (k.ret).x = k.x := rfl
@[simp] theorem Core.ret_tvec (k : Core) : (k.ret).tvec = k.tvec := rfl
@[simp] theorem Core.ret_tcause (k : Core) : (k.ret).tcause = k.tcause := rfl
@[simp] theorem Core.ret_tval (k : Core) : (k.ret).tval = k.tval := rfl
@[simp] theorem Core.ret_epc (k : Core) : (k.ret).epc = k.epc := rfl
@[simp] theorem Core.ret_clock (k : Core) : (k.ret).clock = k.clock := rfl
@[simp] theorem Core.ret_clockNext (k : Core) : (k.ret).clockNext = k.clockNext := rfl
@[simp] theorem Core.ret_quantum (k : Core) : (k.ret).quantum = k.quantum := rfl
@[simp] theorem Core.ret_cmod (k : Core) : (k.ret).cmod = k.cmod := rfl
@[simp] theorem Core.ret_asid (k : Core) : (k.ret).asid = k.asid := rfl
@[simp] theorem Core.ret_cvtev (k : Core) : (k.ret).cvtev = k.cvtev := rfl
@[simp] theorem Core.ret_frec (k : Core) : (k.ret).frec = k.frec := rfl
@[simp] theorem Core.ret_drainb (k : Core) : (k.ret).drainb = k.drainb := rfl
@[simp] theorem Core.ret_wait (k : Core) : (k.ret).wait = k.wait := rfl
@[simp] theorem Core.ret_istale (k : Core) : (k.ret).istale = k.istale := rfl
@[simp] theorem Core.ret_dtlb (k : Core) : (k.ret).dtlb = k.dtlb := rfl
@[simp] theorem Core.ret_itlb (k : Core) : (k.ret).itlb = k.itlb := rfl
@[simp] theorem Core.ret_queues (k : Core) : (k.ret).queues = k.queues := rfl
@[simp] theorem Core.ret_handlers (k : Core) : (k.ret).handlers = k.handlers := rfl
@[simp] theorem Core.ret_barriers (k : Core) : (k.ret).barriers = k.barriers := rfl
@[simp] theorem Core.ret_pending (k : Core) : (k.ret).pending = k.pending := rfl
@[simp] theorem Core.ret_dispatch (k : Core) : (k.ret).dispatch = k.dispatch := rfl
@[simp] theorem Core.ret_atomId (k : Core) : (k.ret).atomId = k.atomId := rfl
@[simp] theorem Core.ret_spoiled (k : Core) : (k.ret).spoiled = k.spoiled := rfl

/-! ### Core.setReg -/

@[simp] theorem Core.setReg_run (k : Core) (r : Reg) (v : Word) : (k.setReg r v).run = k.run := by unfold Core.setReg; split <;> rfl
@[simp] theorem Core.setReg_pc (k : Core) (r : Reg) (v : Word) : (k.setReg r v).pc = k.pc := by unfold Core.setReg; split <;> rfl
@[simp] theorem Core.setReg_status (k : Core) (r : Reg) (v : Word) : (k.setReg r v).status = k.status := by unfold Core.setReg; split <;> rfl
@[simp] theorem Core.setReg_tvec (k : Core) (r : Reg) (v : Word) : (k.setReg r v).tvec = k.tvec := by unfold Core.setReg; split <;> rfl
@[simp] theorem Core.setReg_tcause (k : Core) (r : Reg) (v : Word) : (k.setReg r v).tcause = k.tcause := by unfold Core.setReg; split <;> rfl
@[simp] theorem Core.setReg_tval (k : Core) (r : Reg) (v : Word) : (k.setReg r v).tval = k.tval := by unfold Core.setReg; split <;> rfl
@[simp] theorem Core.setReg_epc (k : Core) (r : Reg) (v : Word) : (k.setReg r v).epc = k.epc := by unfold Core.setReg; split <;> rfl
@[simp] theorem Core.setReg_clock (k : Core) (r : Reg) (v : Word) : (k.setReg r v).clock = k.clock := by unfold Core.setReg; split <;> rfl
@[simp] theorem Core.setReg_clockNext (k : Core) (r : Reg) (v : Word) : (k.setReg r v).clockNext = k.clockNext := by unfold Core.setReg; split <;> rfl
@[simp] theorem Core.setReg_quantum (k : Core) (r : Reg) (v : Word) : (k.setReg r v).quantum = k.quantum := by unfold Core.setReg; split <;> rfl
@[simp] theorem Core.setReg_cmod (k : Core) (r : Reg) (v : Word) : (k.setReg r v).cmod = k.cmod := by unfold Core.setReg; split <;> rfl
@[simp] theorem Core.setReg_asid (k : Core) (r : Reg) (v : Word) : (k.setReg r v).asid = k.asid := by unfold Core.setReg; split <;> rfl
@[simp] theorem Core.setReg_cvtev (k : Core) (r : Reg) (v : Word) : (k.setReg r v).cvtev = k.cvtev := by unfold Core.setReg; split <;> rfl
@[simp] theorem Core.setReg_frec (k : Core) (r : Reg) (v : Word) : (k.setReg r v).frec = k.frec := by unfold Core.setReg; split <;> rfl
@[simp] theorem Core.setReg_drainb (k : Core) (r : Reg) (v : Word) : (k.setReg r v).drainb = k.drainb := by unfold Core.setReg; split <;> rfl
@[simp] theorem Core.setReg_wait (k : Core) (r : Reg) (v : Word) : (k.setReg r v).wait = k.wait := by unfold Core.setReg; split <;> rfl
@[simp] theorem Core.setReg_istale (k : Core) (r : Reg) (v : Word) : (k.setReg r v).istale = k.istale := by unfold Core.setReg; split <;> rfl
@[simp] theorem Core.setReg_dtlb (k : Core) (r : Reg) (v : Word) : (k.setReg r v).dtlb = k.dtlb := by unfold Core.setReg; split <;> rfl
@[simp] theorem Core.setReg_itlb (k : Core) (r : Reg) (v : Word) : (k.setReg r v).itlb = k.itlb := by unfold Core.setReg; split <;> rfl
@[simp] theorem Core.setReg_queues (k : Core) (r : Reg) (v : Word) : (k.setReg r v).queues = k.queues := by unfold Core.setReg; split <;> rfl
@[simp] theorem Core.setReg_handlers (k : Core) (r : Reg) (v : Word) : (k.setReg r v).handlers = k.handlers := by unfold Core.setReg; split <;> rfl
@[simp] theorem Core.setReg_barriers (k : Core) (r : Reg) (v : Word) : (k.setReg r v).barriers = k.barriers := by unfold Core.setReg; split <;> rfl
@[simp] theorem Core.setReg_pending (k : Core) (r : Reg) (v : Word) : (k.setReg r v).pending = k.pending := by unfold Core.setReg; split <;> rfl
@[simp] theorem Core.setReg_dispatch (k : Core) (r : Reg) (v : Word) : (k.setReg r v).dispatch = k.dispatch := by unfold Core.setReg; split <;> rfl
@[simp] theorem Core.setReg_atomId (k : Core) (r : Reg) (v : Word) : (k.setReg r v).atomId = k.atomId := by unfold Core.setReg; split <;> rfl

/-! ### Core.cache -/

@[simp] theorem Core.cache_run (k : Core) (a : Access) (t : TlbEntry) : (k.cache a t).run = k.run := by unfold Core.cache; split <;> rfl
@[simp] theorem Core.cache_x (k : Core) (a : Access) (t : TlbEntry) : (k.cache a t).x = k.x := by unfold Core.cache; split <;> rfl
@[simp] theorem Core.cache_pc (k : Core) (a : Access) (t : TlbEntry) : (k.cache a t).pc = k.pc := by unfold Core.cache; split <;> rfl
@[simp] theorem Core.cache_status (k : Core) (a : Access) (t : TlbEntry) : (k.cache a t).status = k.status := by unfold Core.cache; split <;> rfl
@[simp] theorem Core.cache_tvec (k : Core) (a : Access) (t : TlbEntry) : (k.cache a t).tvec = k.tvec := by unfold Core.cache; split <;> rfl
@[simp] theorem Core.cache_tcause (k : Core) (a : Access) (t : TlbEntry) : (k.cache a t).tcause = k.tcause := by unfold Core.cache; split <;> rfl
@[simp] theorem Core.cache_tval (k : Core) (a : Access) (t : TlbEntry) : (k.cache a t).tval = k.tval := by unfold Core.cache; split <;> rfl
@[simp] theorem Core.cache_epc (k : Core) (a : Access) (t : TlbEntry) : (k.cache a t).epc = k.epc := by unfold Core.cache; split <;> rfl
@[simp] theorem Core.cache_clock (k : Core) (a : Access) (t : TlbEntry) : (k.cache a t).clock = k.clock := by unfold Core.cache; split <;> rfl
@[simp] theorem Core.cache_clockNext (k : Core) (a : Access) (t : TlbEntry) : (k.cache a t).clockNext = k.clockNext := by unfold Core.cache; split <;> rfl
@[simp] theorem Core.cache_quantum (k : Core) (a : Access) (t : TlbEntry) : (k.cache a t).quantum = k.quantum := by unfold Core.cache; split <;> rfl
@[simp] theorem Core.cache_cmod (k : Core) (a : Access) (t : TlbEntry) : (k.cache a t).cmod = k.cmod := by unfold Core.cache; split <;> rfl
@[simp] theorem Core.cache_asid (k : Core) (a : Access) (t : TlbEntry) : (k.cache a t).asid = k.asid := by unfold Core.cache; split <;> rfl
@[simp] theorem Core.cache_cvtev (k : Core) (a : Access) (t : TlbEntry) : (k.cache a t).cvtev = k.cvtev := by unfold Core.cache; split <;> rfl
@[simp] theorem Core.cache_frec (k : Core) (a : Access) (t : TlbEntry) : (k.cache a t).frec = k.frec := by unfold Core.cache; split <;> rfl
@[simp] theorem Core.cache_drainb (k : Core) (a : Access) (t : TlbEntry) : (k.cache a t).drainb = k.drainb := by unfold Core.cache; split <;> rfl
@[simp] theorem Core.cache_wait (k : Core) (a : Access) (t : TlbEntry) : (k.cache a t).wait = k.wait := by unfold Core.cache; split <;> rfl
@[simp] theorem Core.cache_istale (k : Core) (a : Access) (t : TlbEntry) : (k.cache a t).istale = k.istale := by unfold Core.cache; split <;> rfl
@[simp] theorem Core.cache_queues (k : Core) (a : Access) (t : TlbEntry) : (k.cache a t).queues = k.queues := by unfold Core.cache; split <;> rfl
@[simp] theorem Core.cache_handlers (k : Core) (a : Access) (t : TlbEntry) : (k.cache a t).handlers = k.handlers := by unfold Core.cache; split <;> rfl
@[simp] theorem Core.cache_barriers (k : Core) (a : Access) (t : TlbEntry) : (k.cache a t).barriers = k.barriers := by unfold Core.cache; split <;> rfl
@[simp] theorem Core.cache_pending (k : Core) (a : Access) (t : TlbEntry) : (k.cache a t).pending = k.pending := by unfold Core.cache; split <;> rfl
@[simp] theorem Core.cache_dispatch (k : Core) (a : Access) (t : TlbEntry) : (k.cache a t).dispatch = k.dispatch := by unfold Core.cache; split <;> rfl
@[simp] theorem Core.cache_atomId (k : Core) (a : Access) (t : TlbEntry) : (k.cache a t).atomId = k.atomId := by unfold Core.cache; split <;> rfl
@[simp] theorem Core.cache_spoiled (k : Core) (a : Access) (t : TlbEntry) : (k.cache a t).spoiled = k.spoiled := by unfold Core.cache; split <;> rfl

/-! ### What they change -/

@[simp] theorem Core.setPc_pc (k : Core) (v : Word) : (k.setPc v).pc = v := rfl
@[simp] theorem Core.setReg_spoiled (k : Core) (r : Reg) (v : Word) :
    (k.setReg r v).spoiled = if r = 0 then k.spoiled else k.spoiled.filter (· ≠ r) := by unfold Core.setReg; split <;> rfl
@[simp] theorem Core.setPc_reg (k : Core) (v : Word) (r : Reg) : (k.setPc v).reg r = k.reg r := rfl
@[simp] theorem Core.enter_pc (k : Core) (e : Word) (c : Byte) (i : Bool) (v t : Word) : (k.enter e c i v t).pc = pcOf t := rfl
@[simp] theorem Core.enter_epc (k : Core) (e : Word) (c : Byte) (i : Bool) (v t : Word) : (k.enter e c i v t).epc = align4 e := rfl
@[simp] theorem Core.enter_tcause (k : Core) (e : Word) (c : Byte) (i : Bool) (v t : Word) :
    (k.enter e c i v t).tcause = mkTcause i c := rfl
@[simp] theorem Core.enter_tval (k : Core) (e : Word) (c : Byte) (i : Bool) (v t : Word) : (k.enter e c i v t).tval = v := rfl
@[simp] theorem Core.enter_status (k : Core) (e : Word) (c : Byte) (i : Bool) (v t : Word) :
    (k.enter e c i v t).status = k.statusTrap := rfl
@[simp] theorem Core.ret_pc (k : Core) : k.ret.pc = pcOf k.epc := rfl
@[simp] theorem Core.ret_status (k : Core) : k.ret.status = k.statusRet := rfl
@[simp] theorem State.putByte_mem' (s : State) (k : Nat) (b : Byte) : (s.putByte k b).mem = s.mem.set 0 k b := rfl
@[simp] theorem State.writeAstab_astab (s : State) (v : Word) : (s.writeAstab v).astab = keepAstab v := rfl
@[simp] theorem State.writeBartab_bartab (s : State) (v : Word) : (s.writeBartab v).bartab = keepBartab v := by unfold State.writeBartab; rfl
@[simp] theorem State.writeCtxtab_ctxtab (s : State) (v : Word) : (s.writeCtxtab v).ctxtab = keepCtxtab v := rfl

/-! ### Reads after writes -/

@[simp] theorem State.core_setCore_same (s : State) (c : CoreIx) (k : Core) : (s.setCore c k).core c = k := by
  simp [State.core, State.setCore]

theorem State.core_setCore_other (s : State) (c d : CoreIx) (k : Core) (h : d ≠ c) : (s.setCore c k).core d = s.core d := by
  simp only [State.core, State.setCore]
  exact SMap.get_set_other _ _ _ (fun e => h (Fin.ext e))

@[simp] theorem State.me_setMe (s : State) (k : Core) : (s.setMe k).me = k := State.core_setCore_same s s.cur k

theorem State.core_setMe_other (s : State) (d : CoreIx) (k : Core) (h : d ≠ s.cur) : (s.setMe k).core d = s.core d :=
  State.core_setCore_other s s.cur d k h

@[simp] theorem State.me_skip (s : State) : s.skip.me = s.me.setPc (s.me.pc + 4) := State.me_setMe ..

/-- A register write that reads back (R9, R28). -/
theorem Core.reg_setReg (k : Core) (d r : Reg) (v : Word) :
    (k.setReg d v).reg r = if r = 0 then 0 else if r = d then v else k.reg r := by
  unfold Core.setReg Core.reg
  by_cases hr : r = 0
  · simp [hr]
  · by_cases hd : d = 0
    · subst hd; simp [hr]
    · by_cases h : r = d
      · subst h; simp [hr]
      · have : r.val ≠ d.val := fun e => h (Fin.ext e)
        simp [hr, hd, h, SMap.get_set_other _ _ _ this]

@[simp] theorem Core.reg_zero (k : Core) : k.reg 0 = 0 := by simp [Core.reg]

/-- x0 reads as zero whatever is written (R9). -/
@[simp] theorem State.reg_zero (s : State) : s.reg 0 = 0 := Core.reg_zero _

end Sys2Proof.Machine
end

