-- ==== Sys2Proof/Laws/Ops.lean ====
section
/-! SUPPORT. What the shared operations over cores can do: the register write with pc + 4, the trap, translation. -/

namespace Sys2Proof.Machine

open Claims

theorem onlyMe_setMe (s : State) (k : Core) : OnlyMe s (s.setMe k) :=
  ⟨rfl, fun _ h => State.core_setMe_other s _ k h⟩

theorem regsWritten_setReg (k : Core) (d : Reg) (v : Word) : RegsWritten k d v (k.setReg d v) := by
  refine ⟨fun r => ?_, Core.setReg_spoiled k d v⟩
  rw [Core.reg_setReg]
  by_cases h : r = 0
  · subst h; simp
  · by_cases h2 : r = d
    · subst h2; simp [h]
    · simp [h, h2]

/-- A core whose general registers alone may differ. -/
theorem Core.setReg_eq (k : Core) (d : Reg) (v : Word) :
    k.setReg d v = { k with x := (k.setReg d v).x, spoiled := (k.setReg d v).spoiled } := by
  unfold Core.setReg; split <;> rfl

/-- The register write with pc + 4. -/
theorem State.writeNext_wrote (s : State) (d : Reg) (v : Word) : ∃ t, s.writeNext d v = .next t ∧ Wrote s d v t := by
  refine ⟨_, rfl, ?_, ?_, ?_, onlyMe_setMe s _⟩
  · rw [State.me_setMe]
    exact ⟨(regsWritten_setReg s.me d v).regs, (regsWritten_setReg s.me d v).marks⟩
  · rw [State.me_setMe]; rfl
  · rw [State.me_setMe]; unfold Core.setReg Core.setPc; split <;> rfl

/-- pc + 4 alone. -/
theorem State.skip_wentTo (s : State) : WentTo s (s.me.pc + 4) s.skip :=
  ⟨by rw [State.me_skip]; rfl, onlyMe_setMe s _⟩

/-- STATUS of trap entry, bit by bit as R23 has it. -/
theorem Core.statusTrap_eq (k : Core) : k.statusTrap = entryStatus k := by
  unfold Core.statusTrap entryStatus mkStatus Core.ie Core.sup b2n
  cases k.status.getLsbD 0 <;> cases k.status.getLsbD 2 <;> rfl

/-- Clearing bits [1:0] (R11). -/
theorem align4_toNat (v : Word) : (align4 v).toNat = v.toNat / 4 * 4 := by
  have ones : ∀ i < 64, (~~~(3 : Word)).getLsbD i = decide (2 ≤ i) := by decide
  have h : align4 v = (v >>> 2) <<< 2 := by
    unfold align4
    apply BitVec.eq_of_getLsbD_eq
    intro i hi
    simp only [BitVec.getLsbD_and, ones i hi, BitVec.getLsbD_shiftLeft, BitVec.getLsbD_ushiftRight]
    by_cases h2 : i < 2
    · simp [h2, show ¬2 ≤ i by omega]
    · simp [h2, show 2 ≤ i by omega, show 2 + (i - 2) = i by omega, hi]
  rw [h]
  simp only [BitVec.toNat_shiftLeft, BitVec.toNat_ushiftRight, Nat.shiftLeft_eq, Nat.shiftRight_eq_div_pow]
  have := v.isLt
  omega

theorem align4_of_aligned (v : Word) (h : v.toNat % 4 = 0) : align4 v = v := by
  apply BitVec.eq_of_toNat_eq
  rw [align4_toNat]; omega

/-- The pc of an aligned address is its low 52 bits (R9, R26). -/
theorem pcOf_of_aligned (v : Word) (h : v.toNat % 4 = 0) : pcOf v = low52 v := by
  apply BitVec.eq_of_toNat_eq
  simp only [pcOf, low52, field, BitVec.toNat_ofNat, BitVec.toNat_setWidth]
  omega

theorem mkTcause_precise (c : Byte) : mkTcause false c = BitVec.ofNat 64 c.toNat := by simp [mkTcause, b2n]

/-- The parts of a legal core. -/
theorem Core.legal_iff (k : Core) : k.legal = true ↔
    k.x.wf 0 = true ∧ k.x.get 0 0 = 0 ∧ k.pc.toNat % 4 = 0 ∧ k.tvec.toNat % 4 = 0 ∧ k.epc.toNat % 4 = 0 ∧
    k.status.toNat < 32 ∧ k.tcause.toNat < 512 ∧ 16 ≤ k.quantum.toNat ∧ k.quantum.toNat < 2 ^ 32 ∧ k.drainb ≠ 0 ∧
    k.cmod.toNat < 2 ^ 32 ∧ k.frec.toNat % 256 = 0 ∧ k.frec.toNat < 2 ^ 52 := by
  unfold Core.legal
  simp only [Bool.and_eq_true, decide_eq_true_eq, and_assoc]

/-- A precise trap of the acting core. -/
theorem State.trap_trapped (s : State) (h : CanTrap s) (c : Byte) (v : Word) :
    ∃ t, s.trap c v = .next t ∧ Trapped s c.toNat v t := by
  obtain ⟨hl, hn⟩ := h
  obtain ⟨-, -, hpc, htv, -⟩ := (Core.legal_iff _).1 hl
  have e : s.raiseAt s.cur s.me.pc c v = s.setMe (s.me.enter s.me.pc c false v s.me.tvec) := by
    unfold State.raiseAt
    rw [if_neg]
    · rfl
    · simp only [Bool.not_eq_true]; exact hn
  refine ⟨_, rfl, ?_⟩
  rw [e]
  refine ⟨?_, ?_, ?_, ?_, ?_, ?_, onlyMe_setMe s _⟩ <;> rw [State.me_setMe]
  · exact align4_of_aligned _ hpc
  · exact mkTcause_precise c
  · rfl
  · exact Core.statusTrap_eq _
  · exact pcOf_of_aligned _ htv
  · rfl

/-! ### Translation (R263-R265) -/

/-- Two states that differ at most in the data TLB or the instruction TLB of the acting core. -/
structure SameButTlb (s t : State) : Prop where
  core : t.me = { s.me with dtlb := t.me.dtlb, itlb := t.me.itlb }
  only : OnlyMe s t

theorem SameButTlb.refl (s : State) : SameButTlb s s := ⟨rfl, rfl, fun _ _ => rfl⟩

theorem onlyMe_cur {s t : State} (h : OnlyMe s t) : t.cur = s.cur := by rw [h.rest]

theorem onlyMe_trans {s t u : State} (h : OnlyMe s t) (g : OnlyMe t u) : OnlyMe s u := by
  refine ⟨?_, fun c hc => ?_⟩
  · rw [g.rest, h.rest]
  · rw [g.others c (by rw [onlyMe_cur h]; exact hc), h.others c hc]

theorem SameButTlb.trans {s t u : State} (h : SameButTlb s t) (g : SameButTlb t u) : SameButTlb s u := by
  refine ⟨?_, onlyMe_trans h.only g.only⟩
  rw [g.core, h.core]

/-- A translation that answers an address leaves everything but a TLB of the acting core; a data access leaves the
instruction TLB too. -/
theorem State.translate_ok {s t : State} {va pa : Nat} {kind : Access} (h : s.translate va kind = .ok pa t) :
    SameButTlb s t ∧ (kind ≠ .fetch → t.me.itlb = s.me.itlb) := by
  simp only [State.translate] at h
  split at h
  · split at h
    · cases h
    · cases h; exact ⟨.refl s, fun _ => rfl⟩
  · split at h
    · cases h
    · split at h
      · cases h
      · cases h
        refine ⟨⟨?_, onlyMe_setMe s _⟩, fun hk => ?_⟩
        · rw [State.me_setMe]; unfold Core.cache; split <;> rfl
        · rw [State.me_setMe]; unfold Core.cache; rw [if_neg hk]

/-- The span of an access that translates has one physical address for each byte, and leaves all but a TLB of the acting core. -/
theorem State.span_ok {s t : State} {a : Word} {n : Nat} {kind : Access} {pas : List Nat} (h : s.span a n kind = .ok pas t) :
    a.toNat + n ≤ 2 ^ 52 ∧ pas.length = n ∧ SameButTlb s t ∧ (kind ≠ .fetch → t.me.itlb = s.me.itlb) := by
  simp only [State.span] at h
  split at h
  · cases h
  · rename_i hr
    have hr' : a.toNat + n ≤ 2 ^ 52 := by simpa [inRange] using hr
    split at h
    · cases h
    · rename_i pa s1 h1
      have k1 := State.translate_ok h1
      split at h
      · cases h
        exact ⟨hr', by simp [addrs], k1⟩
      · rename_i hn
        split at h
        · cases h
        · rename_i pb s2 h2
          have k2 := State.translate_ok h2
          cases h
          refine ⟨hr', ?_, k1.1.trans k2.1, fun hk => (k2.2 hk).trans (k1.2 hk)⟩
          simp [addrs]; omega

/-! ### What does not look at the cores -/

theorem onlyMe_mem {s t : State} (h : OnlyMe s t) : t.mem = s.mem := by rw [h.rest]
theorem onlyMe_repair {s t : State} (h : OnlyMe s t) : t.repair = s.repair := by rw [h.rest]
theorem onlyMe_bartab {s t : State} (h : OnlyMe s t) : t.bartab = s.bartab := by rw [h.rest]
theorem onlyMe_dv {s t : State} (h : OnlyMe s t) : t.dv = s.dv := by rw [h.rest]
theorem onlyMe_key {s t : State} (h : OnlyMe s t) : t.key = s.key := by rw [h.rest]; rfl
theorem onlyMe_byteAt {s t : State} (h : OnlyMe s t) : t.byteAt = s.byteAt := by rw [h.rest]; rfl
theorem onlyMe_bytesAt {s t : State} (h : OnlyMe s t) : t.bytesAt = s.bytesAt := by rw [h.rest]; rfl
theorem onlyMe_physNat {s t : State} (h : OnlyMe s t) : t.physNat = s.physNat := by rw [h.rest]; rfl
theorem onlyMe_domainUp {s t : State} (h : OnlyMe s t) : t.domainUp = s.domainUp := by rw [h.rest]; rfl
theorem onlyMe_undeliverable {s t : State} (h : OnlyMe s t) : t.undeliverable = s.undeliverable := by rw [h.rest]; rfl

theorem onlyMe_undeliverables {s t : State} (h : OnlyMe s t) (pas : List Nat) : t.undeliverables pas = s.undeliverables pas := by
  induction pas with
  | nil => rfl
  | cons p ps ih => simp only [State.undeliverables, ih, onlyMe_undeliverable h]

theorem onlyMe_unstorable {s t : State} (h : OnlyMe s t) (pas : List Nat) : t.unstorable pas = s.unstorable pas := by
  induction pas with
  | nil => rfl
  | cons p ps ih => simp only [State.unstorable, ih, onlyMe_domainUp h, onlyMe_key h, onlyMe_repair h]

theorem onlyMe_activeLine {s t : State} (h : OnlyMe s t) (k : Nat) : t.activeLine k = s.activeLine k := by
  have e : t.bartabBase = s.bartabBase := by unfold State.bartabBase; rw [onlyMe_bartab h]
  have n : t.nameIn = s.nameIn := by rw [h.rest]; rfl
  simp only [State.activeLine, State.bartabEn, onlyMe_bartab h, e, n, onlyMe_physNat h]

theorem onlyMe_storeRefused {s t : State} (h : OnlyMe s t) (pas : List Nat) : t.storeRefused pas = s.storeRefused pas := by
  have e : ∀ k, t.stamped k = s.stamped k := fun k => by simp only [State.stamped, onlyMe_dv h]
  simp only [State.storeRefused, onlyMe_activeLine h, onlyMe_key h, e]

/-! ### Storage keys and what storage takes -/

theorem keyOfInterleaved_lt (a : Nat) (h : a < devBytes) : keyOfInterleaved a < devBytes := by
  simp only [keyOfInterleaved, chanBytes, devBytes] at *
  omega

/-- Below the register block, keys lie below it (R259, R458). -/
theorem State.key_lt (s : State) (p : Nat) (h : p < blockBase) : s.key p < blockBase := by
  have small : devBytes < blockBase := by decide
  unfold State.key
  split
  · rename_i hw
    have : p < devBytes := by
      simp only [window] at hw
      split at hw
      · assumption
      · repeat' split at hw
        all_goals cases hw
    exact Nat.lt_trans (keyOfInterleaved_lt p this) small
  · omega
  · split
    · rename_i m hw _
      have : (p - domBase) % domStep < devBytes := by
        clear small h
        simp only [window] at hw
        repeat' split at hw
        all_goals first | cases hw; done | skip
        all_goals cases hw; assumption
      exact Nat.lt_trans (keyOfInterleaved_lt _ this) small
    · exact h
  · exact h

/-- Where no byte's channel is offline, storage takes every byte (R479). -/
theorem State.unstorable_none (s : State) (pas : List Nat) (h : s.unstorable pas = none) :
    ∀ p ∈ pas, s.key p < devBytes → s.repair.offline.contains (keyChannel (s.key p)) = false := by
  induction pas with
  | nil => intro p hp; cases hp
  | cons q ps ih =>
    simp only [State.unstorable] at h
    have both : (decide (s.key q < devBytes) && s.repair.offline.contains (keyChannel (s.key q))) = false ∧ s.unstorable ps = none := by
      split at h
      · split at h
        · cases h
        · split at h
          · cases h
          · rename_i _ hf; exact ⟨by simpa using hf, h⟩
      · split at h
        · cases h
        · rename_i hf; exact ⟨by simpa using hf, h⟩
    intro p hp
    rcases List.mem_cons.1 hp with rfl | hp
    · intro hd
      have := both.1
      simpa [hd] using this
    · exact ih both.2 p hp

end Sys2Proof.Machine
end

