-- ==== Sys2Proof/Laws/Memory.lean ====
section
/-! SUPPORT. What stores do to memory, and that every operation over memory keeps its canonical form. -/

namespace Sys2Proof.Machine

open Claims

/-! ### Single bytes and lists of bytes -/

theorem State.byteAt_putByte (s : State) (k j : Nat) (b : Byte) :
    (s.putByte k b).byteAt j = if j = k then b else s.byteAt j := by
  unfold State.byteAt
  rw [State.putByte_mem']
  exact SMap.get_set 0 s.mem k j b

/-- A list of stores changes memory only. -/
theorem State.putBytes_eq (s : State) (l : List (Nat × Byte)) : s.putBytes l = { s with mem := (s.putBytes l).mem } := by
  induction l generalizing s with
  | nil => rfl
  | cons p r ih => unfold State.putBytes; rw [ih]; rfl

/-- A byte after a list of stores: the last store to its key decides. -/
theorem State.byteAt_putBytes (s : State) (l : List (Nat × Byte)) (j : Nat) :
    (s.putBytes l).byteAt j = match l.reverse.find? (·.1 = j) with
      | some p => p.2
      | none => s.byteAt j := by
  induction l generalizing s with
  | nil => rfl
  | cons p r ih =>
    unfold State.putBytes
    rw [ih, List.reverse_cons, List.find?_append]
    cases h : r.reverse.find? (·.1 = j) with
    | some q => simp
    | none =>
      simp only [Option.none_or]
      rw [State.byteAt_putByte]
      by_cases e : j = p.1
      · subst e; simp
      · have e' : ¬p.1 = j := fun h => e h.symm
        simp [e, e']

theorem State.wf_putByte (s : State) (k : Nat) (b : Byte) (h : Memory.wf s.mem = true) : Memory.wf (s.putByte k b).mem = true :=
  SMap.wf_set 0 s.mem k b h

theorem State.wf_putBytes (s : State) (l : List (Nat × Byte)) (h : Memory.wf s.mem = true) : Memory.wf (s.putBytes l).mem = true := by
  induction l generalizing s with
  | nil => exact h
  | cons p r ih => exact ih _ (s.wf_putByte p.1 p.2 h)

/-- The memory after a store. -/
theorem State.storeBytes_mem (s : State) (pas : List Nat) (bs : List Byte) :
    (s.storeBytes pas bs).mem = (s.putBytes (s.storable pas bs)).mem := rfl

/-- A store changes memory and marks only. -/
theorem State.storeBytes_eq (s : State) (pas : List Nat) (bs : List Byte) :
    s.storeBytes pas bs =
      { s with mem := (s.storeBytes pas bs).mem, repair := { s.repair with marks := (s.storeBytes pas bs).repair.marks } } := by
  have h := s.putBytes_eq (s.storable pas bs)
  simp only [State.storeBytes]
  rw [h]

/-- Every store keeps memory canonical. -/
theorem State.wf_storeBytes (s : State) (pas : List Nat) (bs : List Byte) (h : Memory.wf s.mem = true) :
    Memory.wf (s.storeBytes pas bs).mem = true := s.wf_putBytes _ h

theorem State.wf_storeNat (s : State) (pa n v : Nat) (h : Memory.wf s.mem = true) : Memory.wf (s.storeNat pa n v).mem = true :=
  s.wf_storeBytes _ _ h

theorem State.byteAt_storeBytes (s : State) (pas : List Nat) (bs : List Byte) (j : Nat) :
    (s.storeBytes pas bs).byteAt j = match (s.storable pas bs).reverse.find? (·.1 = j) with
      | some p => p.2
      | none => s.byteAt j := State.byteAt_putBytes s _ j

/-- A byte whose key is none of those stored is as before. -/
theorem State.byteAt_storeBytes_other (s : State) (pas : List Nat) (bs : List Byte) (j : Nat) (h : j ∉ pas.map s.key) :
    (s.storeBytes pas bs).byteAt j = s.byteAt j := by
  rw [State.byteAt_storeBytes]
  split
  · rename_i p hp
    exfalso
    have hm := List.mem_of_find?_eq_some hp
    have hk : p.1 = j := by simpa using List.find?_some hp
    rw [List.mem_reverse, State.storable, List.mem_filter] at hm
    exact h (hk ▸ (List.of_mem_zip hm.1).1)
  · rfl

/-- The last entry that p accepts is the i-th where p accepts it and no later one. -/
theorem find?_reverse_of_last {α : Type} (p : α → Bool) (l : List α) (i : Nat) (hi : i < l.length) (hp : p l[i] = true)
    (h : ∀ m, (hm : m < l.length) → i < m → p l[m] = false) : l.reverse.find? p = some l[i] := by
  have e : l.reverse = (l.drop (i + 1)).reverse ++ l[i] :: (l.take i).reverse := by
    have e0 : l = l.take i ++ l[i] :: l.drop (i + 1) := by
      rw [List.getElem_cons_drop, List.take_append_drop]
    have e1 := congrArg List.reverse e0
    rwa [List.reverse_append, List.reverse_cons, List.append_assoc, List.singleton_append] at e1
  have none_ : (l.drop (i + 1)).reverse.find? p = none := by
    rw [List.find?_eq_none]
    intro x hx
    rw [List.mem_reverse, List.mem_iff_getElem] at hx
    obtain ⟨m, hm, rfl⟩ := hx
    rw [List.length_drop] at hm
    rw [List.getElem_drop, h _ (by omega) (by omega)]
    simp
  rw [e, List.find?_append, none_]
  simp [hp]

/-- A byte at a key that storage takes reads as stored, the last of equal keys deciding. -/
theorem State.byteAt_storeBytes_same (s : State) (pas : List Nat) (bs : List Byte) (i : Nat) (hi : i < pas.length)
    (hb : i < bs.length) (last : ∀ m, (h : m < pas.length) → i < m → s.key pas[m] ≠ s.key pas[i])
    (on : s.key pas[i] < devBytes → s.repair.offline.contains (keyChannel (s.key pas[i])) = false)
    (low : s.key pas[i] < blockBase) : (s.storeBytes pas bs).byteAt (s.key pas[i]) = bs[i] := by
  rw [State.byteAt_storeBytes, State.storable, ← List.filter_reverse, List.find?_filter]
  have hl : i < ((pas.map s.key).zip bs).length := by simp; omega
  rw [find?_reverse_of_last _ _ i hl]
  · simp
  · by_cases h : s.key pas[i] < devBytes
    · simp [Nat.not_le.mpr low, h, by simpa using on h]
    · simp [Nat.not_le.mpr low, h]
  · intro m hm him
    have hm' : m < pas.length := by simp at hm; omega
    simp [last m hm' him]

end Sys2Proof.Machine
end

