-- ==== Sys2Proof/Laws/PerInstr.lean ====
section
/-! SUPPORT. A fact about every instruction, one lemma per constructor: the word of an instruction that has one fits in 32 bits
(R48), and the steps of the device have none. -/

namespace Sys2Proof.Laws.WordBound

/-- The word of an instruction, if it has one, is below 2^32. -/
def Statement (i : Instr) : Prop := ∀ n, encodeNat i = some n → n < 2 ^ 32

/-- Formats R, I, U and S stay below 2^32 where their fields do. -/
theorem encR_lt {op d a b k : Nat} (h1 : op < 64) (h2 : d < 64) (h3 : a < 64) (h4 : b < 64) (h5 : k < 256) : encR op d a b k < 2 ^ 32 := by
  unfold encR; omega
theorem encI_lt {op d a f i : Nat} (h1 : op < 64) (h2 : d < 64) (h3 : a < 64) (h4 : f < 4) (h5 : i < 4096) : encI op d a f i < 2 ^ 32 := by
  unfold encI; omega
theorem encU_lt {op d i : Nat} (h1 : op < 64) (h2 : d < 64) (h3 : i < 2 ^ 20) : encU op d i < 2 ^ 32 := by
  unfold encU; omega
theorem encSB_lt {op a b i : Nat} (h1 : op < 64) (h2 : a < 64) (h3 : b < 64) (h4 : i < 2 ^ 14) : encSB op a b i < 2 ^ 32 := by
  unfold encSB; omega

theorem add : ∀ a0 a1 a2, Statement (.add a0 a1 a2) := by
  intro a0 a1 a2 n h; cases h; apply encR_lt <;> omega
theorem sub : ∀ a0 a1 a2, Statement (.sub a0 a1 a2) := by
  intro a0 a1 a2 n h; cases h; apply encR_lt <;> omega
theorem mul : ∀ a0 a1 a2, Statement (.mul a0 a1 a2) := by
  intro a0 a1 a2 n h; cases h; apply encR_lt <;> omega
theorem mulh : ∀ a0 a1 a2, Statement (.mulh a0 a1 a2) := by
  intro a0 a1 a2 n h; cases h; apply encR_lt <;> omega
theorem mulhu : ∀ a0 a1 a2, Statement (.mulhu a0 a1 a2) := by
  intro a0 a1 a2 n h; cases h; apply encR_lt <;> omega
theorem div : ∀ a0 a1 a2, Statement (.div a0 a1 a2) := by
  intro a0 a1 a2 n h; cases h; apply encR_lt <;> omega
theorem divu : ∀ a0 a1 a2, Statement (.divu a0 a1 a2) := by
  intro a0 a1 a2 n h; cases h; apply encR_lt <;> omega
theorem rem : ∀ a0 a1 a2, Statement (.rem a0 a1 a2) := by
  intro a0 a1 a2 n h; cases h; apply encR_lt <;> omega
theorem remu : ∀ a0 a1 a2, Statement (.remu a0 a1 a2) := by
  intro a0 a1 a2 n h; cases h; apply encR_lt <;> omega
theorem and : ∀ a0 a1 a2, Statement (.and a0 a1 a2) := by
  intro a0 a1 a2 n h; cases h; apply encR_lt <;> omega
theorem or : ∀ a0 a1 a2, Statement (.or a0 a1 a2) := by
  intro a0 a1 a2 n h; cases h; apply encR_lt <;> omega
theorem xor : ∀ a0 a1 a2, Statement (.xor a0 a1 a2) := by
  intro a0 a1 a2 n h; cases h; apply encR_lt <;> omega
theorem shl : ∀ a0 a1 a2, Statement (.shl a0 a1 a2) := by
  intro a0 a1 a2 n h; cases h; apply encR_lt <;> omega
theorem shr : ∀ a0 a1 a2, Statement (.shr a0 a1 a2) := by
  intro a0 a1 a2 n h; cases h; apply encR_lt <;> omega
theorem sra : ∀ a0 a1 a2, Statement (.sra a0 a1 a2) := by
  intro a0 a1 a2 n h; cases h; apply encR_lt <;> omega
theorem slt : ∀ a0 a1 a2, Statement (.slt a0 a1 a2) := by
  intro a0 a1 a2 n h; cases h; apply encR_lt <;> omega
theorem sltu : ∀ a0 a1 a2, Statement (.sltu a0 a1 a2) := by
  intro a0 a1 a2 n h; cases h; apply encR_lt <;> omega
theorem min : ∀ a0 a1 a2, Statement (.min a0 a1 a2) := by
  intro a0 a1 a2 n h; cases h; apply encR_lt <;> omega
theorem max : ∀ a0 a1 a2, Statement (.max a0 a1 a2) := by
  intro a0 a1 a2 n h; cases h; apply encR_lt <;> omega
theorem addi : ∀ a0 a1 a2, Statement (.addi a0 a1 a2) := by
  intro a0 a1 a2 n h; cases h; apply encI_lt <;> omega
theorem andi : ∀ a0 a1 a2, Statement (.andi a0 a1 a2) := by
  intro a0 a1 a2 n h; cases h; apply encI_lt <;> omega
theorem ori : ∀ a0 a1 a2, Statement (.ori a0 a1 a2) := by
  intro a0 a1 a2 n h; cases h; apply encI_lt <;> omega
theorem xori : ∀ a0 a1 a2, Statement (.xori a0 a1 a2) := by
  intro a0 a1 a2 n h; cases h; apply encI_lt <;> omega
theorem slti : ∀ a0 a1 a2, Statement (.slti a0 a1 a2) := by
  intro a0 a1 a2 n h; cases h; apply encI_lt <;> omega
theorem shli : ∀ a0 a1 a2, Statement (.shli a0 a1 a2) := by
  intro a0 a1 a2 n h; cases h; apply encI_lt <;> omega
theorem shri : ∀ a0 a1 a2, Statement (.shri a0 a1 a2) := by
  intro a0 a1 a2 n h; cases h; apply encI_lt <;> omega
theorem srai : ∀ a0 a1 a2, Statement (.srai a0 a1 a2) := by
  intro a0 a1 a2 n h; cases h; apply encI_lt <;> omega
theorem lui : ∀ a0 a1, Statement (.lui a0 a1) := by
  intro a0 a1 n h; cases h; apply encU_lt <;> omega
theorem pcrel : ∀ a0 a1, Statement (.pcrel a0 a1) := by
  intro a0 a1 n h; cases h; apply encU_lt <;> omega
theorem clz : ∀ a0 a1, Statement (.clz a0 a1) := by
  intro a0 a1 n h; cases h; apply encR_lt <;> omega
theorem popc : ∀ a0 a1, Statement (.popc a0 a1) := by
  intro a0 a1 n h; cases h; apply encR_lt <;> omega
theorem jal : ∀ a0 a1, Statement (.jal a0 a1) := by
  intro a0 a1 n h; cases h; apply encU_lt <;> omega
theorem jalr : ∀ a0 a1 a2, Statement (.jalr a0 a1 a2) := by
  intro a0 a1 a2 n h; cases h; apply encI_lt <;> omega
theorem cell : ∀ a0 a1 a2 a3, Statement (.cell a0 a1 a2 a3) := by
  intro a0 a1 a2 a3 n h; cases h; apply encR_lt <;> omega
theorem cell3 : ∀ a0 a1 a2 a3, Statement (.cell3 a0 a1 a2 a3) := by
  intro a0 a1 a2 a3 n h; cases h; apply encR_lt <;> omega
theorem beq : ∀ a0 a1 a2, Statement (.beq a0 a1 a2) := by
  intro a0 a1 a2 n h; cases h; apply encSB_lt <;> omega
theorem bne : ∀ a0 a1 a2, Statement (.bne a0 a1 a2) := by
  intro a0 a1 a2 n h; cases h; apply encSB_lt <;> omega
theorem blt : ∀ a0 a1 a2, Statement (.blt a0 a1 a2) := by
  intro a0 a1 a2 n h; cases h; apply encSB_lt <;> omega
theorem bge : ∀ a0 a1 a2, Statement (.bge a0 a1 a2) := by
  intro a0 a1 a2 n h; cases h; apply encSB_lt <;> omega
theorem bltu : ∀ a0 a1 a2, Statement (.bltu a0 a1 a2) := by
  intro a0 a1 a2 n h; cases h; apply encSB_lt <;> omega
theorem bgeu : ∀ a0 a1 a2, Statement (.bgeu a0 a1 a2) := by
  intro a0 a1 a2 n h; cases h; apply encSB_lt <;> omega
theorem ldb : ∀ a0 a1 a2, Statement (.ldb a0 a1 a2) := by
  intro a0 a1 a2 n h; cases h; apply encI_lt <;> omega
theorem ldbu : ∀ a0 a1 a2, Statement (.ldbu a0 a1 a2) := by
  intro a0 a1 a2 n h; cases h; apply encI_lt <;> omega
theorem ldh : ∀ a0 a1 a2, Statement (.ldh a0 a1 a2) := by
  intro a0 a1 a2 n h; cases h; apply encI_lt <;> omega
theorem ldhu : ∀ a0 a1 a2, Statement (.ldhu a0 a1 a2) := by
  intro a0 a1 a2 n h; cases h; apply encI_lt <;> omega
theorem ldw : ∀ a0 a1 a2, Statement (.ldw a0 a1 a2) := by
  intro a0 a1 a2 n h; cases h; apply encI_lt <;> omega
theorem ldwu : ∀ a0 a1 a2, Statement (.ldwu a0 a1 a2) := by
  intro a0 a1 a2 n h; cases h; apply encI_lt <;> omega
theorem ldd : ∀ a0 a1 a2, Statement (.ldd a0 a1 a2) := by
  intro a0 a1 a2 n h; cases h; apply encI_lt <;> omega
theorem stb : ∀ a0 a1 a2, Statement (.stb a0 a1 a2) := by
  intro a0 a1 a2 n h; cases h; apply encSB_lt <;> omega
theorem sth : ∀ a0 a1 a2, Statement (.sth a0 a1 a2) := by
  intro a0 a1 a2 n h; cases h; apply encSB_lt <;> omega
theorem stw : ∀ a0 a1 a2, Statement (.stw a0 a1 a2) := by
  intro a0 a1 a2 n h; cases h; apply encSB_lt <;> omega
theorem std : ∀ a0 a1 a2, Statement (.std a0 a1 a2) := by
  intro a0 a1 a2 n h; cases h; apply encSB_lt <;> omega
theorem cfgload : ∀ a0 a1 a2 a3, Statement (.cfgload a0 a1 a2 a3) := by
  intro a0 a1 a2 a3 n h; cases h; apply encR_lt <;> omega
theorem cfgdrop : ∀ a0 a1, Statement (.cfgdrop a0 a1) := by
  intro a0 a1 n h; cases h; apply encR_lt <;> omega
theorem glaunch : ∀ a0 a1, Statement (.glaunch a0 a1) := by
  intro a0 a1 n h; cases h; apply encR_lt <;> omega
theorem qpush : ∀ a0 a1 a2, Statement (.qpush a0 a1 a2) := by
  intro a0 a1 a2 n h; cases h; apply encR_lt <;> omega
theorem sigemit : ∀ a0 a1, Statement (.sigemit a0 a1) := by
  intro a0 a1 n h; cases h; apply encR_lt <;> omega
theorem sigread : ∀ a0 a1 a2, Statement (.sigread a0 a1 a2) := by
  intro a0 a1 a2 n h; cases h; apply encR_lt <;> omega
theorem armsec : ∀ a0 a1, Statement (.armsec a0 a1) := by
  intro a0 a1 n h; cases h; apply encR_lt <;> omega
theorem gwait : ∀ a0 a1, Statement (.gwait a0 a1) := by
  intro a0 a1 n h; cases h; apply encR_lt <;> omega
theorem fence : ∀ a0, Statement (.fence a0) := by
  intro a0 n h; cases h; apply encR_lt <;> omega
theorem amo : ∀ a0 a1 a2 a3 a4 a5, Statement (.amo a0 a1 a2 a3 a4 a5) := by
  intro a0 a1 a2 a3 a4 a5 n h; cases h; apply encR_lt <;> omega
theorem chsend : ∀ a0 a1 a2, Statement (.chsend a0 a1 a2) := by
  intro a0 a1 a2 n h; cases h; apply encR_lt <;> omega
theorem chrecv : ∀ a0 a1, Statement (.chrecv a0 a1) := by
  intro a0 a1 n h; cases h; apply encR_lt <;> omega
theorem chpoll : ∀ a0 a1, Statement (.chpoll a0 a1) := by
  intro a0 a1 n h; cases h; apply encR_lt <;> omega
theorem barinit : ∀ a0 a1, Statement (.barinit a0 a1) := by
  intro a0 a1 n h; cases h; apply encR_lt <;> omega
theorem bararr : ∀ a0, Statement (.bararr a0) := by
  intro a0 n h; cases h; apply encR_lt <;> omega
theorem barwait : ∀ a0 a1, Statement (.barwait a0 a1) := by
  intro a0 a1 n h; cases h; apply encR_lt <;> omega
theorem barinv : ∀ a0, Statement (.barinv a0) := by
  intro a0 n h; cases h; apply encR_lt <;> omega
theorem trap : ∀ a0, Statement (.trap a0) := by
  intro a0 n h; cases h; omega
theorem tret : Statement (.tret) := by
  intro n h; cases h; apply encR_lt <;> omega
theorem waiti : Statement (.waiti) := by
  intro n h; cases h; apply encR_lt <;> omega
theorem brk : ∀ a0, Statement (.brk a0) := by
  intro a0 n h; cases h; omega
theorem crr : ∀ a0 a1, Statement (.crr a0 a1) := by
  intro a0 a1 n h; cases h; apply encI_lt <;> omega
theorem crw : ∀ a0 a1, Statement (.crw a0 a1) := by
  intro a0 a1 n h; cases h; apply encI_lt <;> omega
theorem hdlset : ∀ a0 a1, Statement (.hdlset a0 a1) := by
  intro a0 a1 n h; cases h; apply encR_lt <;> omega
theorem clockWrite : ∀ a0, Statement (.clockWrite a0) := by intro a0 n h; cases h
theorem quantumWrite : ∀ a0, Statement (.quantumWrite a0) := by intro a0 n h; cases h
theorem astabWrite : ∀ a0, Statement (.astabWrite a0) := by intro a0 n h; cases h
theorem tinvWrite : ∀ a0, Statement (.tinvWrite a0) := by intro a0 n h; cases h
theorem tinvComplete : ∀ a0, Statement (.tinvComplete a0) := by intro a0 n h; cases h
theorem drainbWrite : ∀ a0, Statement (.drainbWrite a0) := by intro a0 n h; cases h
theorem gctlResume : ∀ a0, Statement (.gctlResume a0) := by intro a0 n h; cases h
theorem gctlEnd : ∀ a0, Statement (.gctlEnd a0) := by intro a0 n h; cases h
theorem gctlDrop : ∀ a0, Statement (.gctlDrop a0) := by intro a0 n h; cases h
theorem gctlNext : ∀ a0, Statement (.gctlNext a0) := by intro a0 n h; cases h
theorem fadd : ∀ a0, Statement (.fadd a0) := by intro a0 n h; cases h
theorem fsub : ∀ a0, Statement (.fsub a0) := by intro a0 n h; cases h
theorem fmul : ∀ a0, Statement (.fmul a0) := by intro a0 n h; cases h
theorem ffma : ∀ a0, Statement (.ffma a0) := by intro a0 n h; cases h
theorem fmax : ∀ a0, Statement (.fmax a0) := by intro a0 n h; cases h
theorem fmin : ∀ a0, Statement (.fmin a0) := by intro a0 n h; cases h
theorem frcp : ∀ a0, Statement (.frcp a0) := by intro a0 n h; cases h
theorem frsq : ∀ a0, Statement (.frsq a0) := by intro a0 n h; cases h
theorem fexp2 : ∀ a0, Statement (.fexp2 a0) := by intro a0 n h; cases h
theorem flog2 : ∀ a0, Statement (.flog2 a0) := by intro a0 n h; cases h
theorem fscl : ∀ a0, Statement (.fscl a0) := by intro a0 n h; cases h
theorem fcmp : ∀ a0, Statement (.fcmp a0) := by intro a0 n h; cases h
theorem fsel : ∀ a0, Statement (.fsel a0) := by intro a0 n h; cases h
theorem fcvt : ∀ a0, Statement (.fcvt a0) := by intro a0 n h; cases h
theorem iadd : ∀ a0, Statement (.iadd a0) := by intro a0 n h; cases h
theorem isub : ∀ a0, Statement (.isub a0) := by intro a0 n h; cases h
theorem imul : ∀ a0, Statement (.imul a0) := by intro a0 n h; cases h
theorem imad : ∀ a0, Statement (.imad a0) := by intro a0 n h; cases h
theorem iand : ∀ a0, Statement (.iand a0) := by intro a0 n h; cases h
theorem ior : ∀ a0, Statement (.ior a0) := by intro a0 n h; cases h
theorem ixor : ∀ a0, Statement (.ixor a0) := by intro a0 n h; cases h
theorem ishl : ∀ a0, Statement (.ishl a0) := by intro a0 n h; cases h
theorem ishr : ∀ a0, Statement (.ishr a0) := by intro a0 n h; cases h
theorem icmp : ∀ a0, Statement (.icmp a0) := by intro a0 n h; cases h
theorem imin : ∀ a0, Statement (.imin a0) := by intro a0 n h; cases h
theorem imax : ∀ a0, Statement (.imax a0) := by intro a0 n h; cases h
theorem lbcast : ∀ a0, Statement (.lbcast a0) := by intro a0 n h; cases h
theorem lperm : ∀ a0, Statement (.lperm a0) := by intro a0 n h; cases h
theorem lred : ∀ a0, Statement (.lred a0) := by intro a0 n h; cases h
theorem lscan : ∀ a0, Statement (.lscan a0) := by intro a0 n h; cases h
theorem lshift : ∀ a0, Statement (.lshift a0) := by intro a0 n h; cases h
theorem accum : ∀ a0, Statement (.accum a0) := by intro a0 n h; cases h
theorem runmax : ∀ a0, Statement (.runmax a0) := by intro a0 n h; cases h
theorem count : ∀ a0, Statement (.count a0) := by intro a0 n h; cases h
theorem gen : ∀ a0, Statement (.gen a0) := by intro a0 n h; cases h
theorem const : ∀ a0, Statement (.const a0) := by intro a0 n h; cases h
theorem delay : ∀ a0, Statement (.delay a0) := by intro a0 n h; cases h
theorem rng : ∀ a0, Statement (.rng a0) := by intro a0 n h; cases h
theorem cumsum : ∀ a0, Statement (.cumsum a0) := by intro a0 n h; cases h
theorem icdf : ∀ a0, Statement (.icdf a0) := by intro a0 n h; cases h
theorem topk : ∀ a0, Statement (.topk a0) := by intro a0 n h; cases h
theorem argmax : ∀ a0, Statement (.argmax a0) := by intro a0 n h; cases h
theorem sdadd : ∀ a0, Statement (.sdadd a0) := by intro a0 n h; cases h
theorem sdmul : ∀ a0, Statement (.sdmul a0) := by intro a0 n h; cases h
theorem sdcmp : ∀ a0, Statement (.sdcmp a0) := by intro a0 n h; cases h
theorem sdcut : ∀ a0, Statement (.sdcut a0) := by intro a0 n h; cases h
theorem sdtow : ∀ a0, Statement (.sdtow a0) := by intro a0 n h; cases h
theorem mma : ∀ a0, Statement (.mma a0) := by intro a0 n h; cases h
theorem smma : ∀ a0, Statement (.smma a0) := by intro a0 n h; cases h
theorem mxcfg : ∀ a0, Statement (.mxcfg a0) := by intro a0 n h; cases h
theorem mxcfgMma : ∀ a0, Statement (.mxcfgMma a0) := by intro a0 n h; cases h
theorem mxcfgSmma : ∀ a0, Statement (.mxcfgSmma a0) := by intro a0 n h; cases h
theorem accld : ∀ a0, Statement (.accld a0) := by intro a0 n h; cases h
theorem accst : ∀ a0, Statement (.accst a0) := by intro a0 n h; cases h
theorem mxcfgSetfmt : ∀ a0, Statement (.mxcfgSetfmt a0) := by intro a0 n h; cases h
theorem matrixStep : ∀ a0, Statement (.matrixStep a0) := by intro a0 n h; cases h
theorem tilesExpire : ∀ a0, Statement (.tilesExpire a0) := by intro a0 n h; cases h
theorem fscanc : ∀ a0, Statement (.fscanc a0) := by intro a0 n h; cases h
theorem fscand : ∀ a0, Statement (.fscand a0) := by intro a0 n h; cases h
theorem fscanb : ∀ a0, Statement (.fscanb a0) := by intro a0 n h; cases h
theorem fscant : ∀ a0, Statement (.fscant a0) := by intro a0 n h; cases h
theorem fisect : ∀ a0, Statement (.fisect a0) := by intro a0 n h; cases h
theorem funion : ∀ a0, Statement (.funion a0) := by intro a0 n h; cases h
theorem frepeat : ∀ a0, Statement (.frepeat a0) := by intro a0 n h; cases h
theorem freduce : ∀ a0, Statement (.freduce a0) := by intro a0 n h; cases h
theorem fdrop : ∀ a0, Statement (.fdrop a0) := by intro a0 n h; cases h
theorem route : ∀ a0, Statement (.route a0) := by intro a0 n h; cases h
theorem steer : ∀ a0, Statement (.steer a0) := by intro a0 n h; cases h
theorem merge : ∀ a0, Statement (.merge a0) := by intro a0 n h; cases h
theorem join : ∀ a0, Statement (.join a0) := by intro a0 n h; cases h
theorem carry : ∀ a0, Statement (.carry a0) := by intro a0 n h; cases h
theorem invar : ∀ a0, Statement (.invar a0) := by intro a0 n h; cases h
theorem split : ∀ a0, Statement (.split a0) := by intro a0 n h; cases h
theorem order : ∀ a0, Statement (.order a0) := by intro a0 n h; cases h
theorem discard : ∀ a0, Statement (.discard a0) := by intro a0 n h; cases h
theorem sprd : ∀ a0, Statement (.sprd a0) := by intro a0 n h; cases h
theorem spwr : ∀ a0, Statement (.spwr a0) := by intro a0 n h; cases h
theorem spbuf : ∀ a0, Statement (.spbuf a0) := by intro a0 n h; cases h
theorem spfifo : ∀ a0, Statement (.spfifo a0) := by intro a0 n h; cases h
theorem aadd : ∀ a0, Statement (.aadd a0) := by intro a0 n h; cases h
theorem afadd : ∀ a0, Statement (.afadd a0) := by intro a0 n h; cases h
theorem amax : ∀ a0, Statement (.amax a0) := by intro a0 n h; cases h
theorem axchg : ∀ a0, Statement (.axchg a0) := by intro a0 n h; cases h
theorem acas : ∀ a0, Statement (.acas a0) := by intro a0 n h; cases h
theorem affld : ∀ a0, Statement (.affld a0) := by intro a0 n h; cases h
theorem affst : ∀ a0, Statement (.affst a0) := by intro a0 n h; cases h
theorem gath : ∀ a0, Statement (.gath a0) := by intro a0 n h; cases h
theorem scat : ∀ a0, Statement (.scat a0) := by intro a0 n h; cases h
theorem rowg : ∀ a0, Statement (.rowg a0) := by intro a0 n h; cases h
theorem bagsum : ∀ a0, Statement (.bagsum a0) := by intro a0 n h; cases h
theorem chld : ∀ a0, Statement (.chld a0) := by intro a0 n h; cases h
theorem chst : ∀ a0, Statement (.chst a0) := by intro a0 n h; cases h
theorem chamo : ∀ a0, Statement (.chamo a0) := by intro a0 n h; cases h
theorem mnop : ∀ a0, Statement (.mnop a0) := by intro a0 n h; cases h
theorem req : ∀ a0, Statement (.req a0) := by intro a0 n h; cases h
theorem egress : ∀ a0, Statement (.egress a0) := by intro a0 n h; cases h
theorem camld : ∀ a0, Statement (.camld a0) := by intro a0 n h; cases h
theorem camg : ∀ a0, Statement (.camg a0) := by intro a0 n h; cases h
theorem camr : ∀ a0, Statement (.camr a0) := by intro a0 n h; cases h
theorem cams : ∀ a0, Statement (.cams a0) := by intro a0 n h; cases h
theorem pleat : ∀ a0, Statement (.pleat a0) := by intro a0 n h; cases h
theorem ringput : ∀ a0, Statement (.ringput a0) := by intro a0 n h; cases h
theorem hemSweep : Statement (.hemSweep) := by intro n h; cases h
theorem instantResolve : ∀ a0, Statement (.instantResolve a0) := by intro a0 n h; cases h
theorem complIncrement : ∀ a0, Statement (.complIncrement a0) := by intro a0 n h; cases h
theorem queueTailSeen : ∀ a0, Statement (.queueTailSeen a0) := by intro a0 n h; cases h
theorem distributorSelect : Statement (.distributorSelect) := by intro n h; cases h
theorem configFrameArrive : ∀ a0 a1, Statement (.configFrameArrive a0 a1) := by intro a0 a1 n h; cases h
theorem cfgLoadComplete : ∀ a0 a1, Statement (.cfgLoadComplete a0 a1) := by intro a0 a1 n h; cases h
theorem quantumExpiry : ∀ a0, Statement (.quantumExpiry a0) := by intro a0 n h; cases h
theorem cutSave : ∀ a0, Statement (.cutSave a0) := by intro a0 n h; cases h
theorem drainBudgetExpiry : ∀ a0, Statement (.drainBudgetExpiry a0) := by intro a0 n h; cases h
theorem contextSaved : ∀ a0, Statement (.contextSaved a0) := by intro a0 n h; cases h
theorem contextRestore : ∀ a0, Statement (.contextRestore a0) := by intro a0 n h; cases h
theorem restoreComplete : ∀ a0, Statement (.restoreComplete a0) := by intro a0 n h; cases h
theorem stallPeriod : Statement (.stallPeriod) := by intro n h; cases h
theorem pageClone : ∀ a0 a1, Statement (.pageClone a0 a1) := by intro a0 a1 n h; cases h
theorem blockDispatch : ∀ a0 a1 a2, Statement (.blockDispatch a0 a1 a2) := by intro a0 a1 a2 n h; cases h
theorem blockSchedule : ∀ a0, Statement (.blockSchedule a0) := by intro a0 n h; cases h
theorem skipRequest : ∀ a0, Statement (.skipRequest a0) := by intro a0 n h; cases h
theorem stageToken : ∀ a0, Statement (.stageToken a0) := by intro a0 n h; cases h
theorem tileTransfer : ∀ a0, Statement (.tileTransfer a0) := by intro a0 n h; cases h
theorem memoryReply : ∀ a0, Statement (.memoryReply a0) := by intro a0 n h; cases h
theorem pageWalk : ∀ a0 a1 a2 a3, Statement (.pageWalk a0 a1 a2 a3) := by intro a0 a1 a2 a3 n h; cases h
theorem chainEntryArrive : ∀ a0 a1, Statement (.chainEntryArrive a0 a1) := by intro a0 a1 n h; cases h
theorem chainRelease : ∀ a0 a1, Statement (.chainRelease a0 a1) := by intro a0 a1 n h; cases h
theorem chgapTimeout : ∀ a0 a1, Statement (.chgapTimeout a0 a1) := by intro a0 a1 n h; cases h
theorem pocketDrain : ∀ a0, Statement (.pocketDrain a0) := by intro a0 n h; cases h
theorem elementFault : ∀ a0, Statement (.elementFault a0) := by intro a0 n h; cases h
theorem replay : ∀ a0, Statement (.replay a0) := by intro a0 n h; cases h
theorem graphCauseDelivery : ∀ a0, Statement (.graphCauseDelivery a0) := by intro a0 n h; cases h
theorem messageArrive : ∀ a0 a1 a2, Statement (.messageArrive a0 a1 a2) := by intro a0 a1 a2 n h; cases h
theorem messageDispatch : ∀ a0, Statement (.messageDispatch a0) := by intro a0 n h; cases h
theorem atomicReceive : ∀ a0 a1, Statement (.atomicReceive a0 a1) := by intro a0 a1 n h; cases h
theorem atomicResend : ∀ a0 a1, Statement (.atomicResend a0 a1) := by intro a0 a1 n h; cases h
theorem collectiveRequest : ∀ a0, Statement (.collectiveRequest a0) := by intro a0 n h; cases h
theorem collectiveComplete : ∀ a0, Statement (.collectiveComplete a0) := by intro a0 n h; cases h
theorem collectiveTimeout : ∀ a0, Statement (.collectiveTimeout a0) := by intro a0 n h; cases h
theorem hostMemRead : ∀ a0 a1, Statement (.hostMemRead a0 a1) := by intro a0 a1 n h; cases h
theorem hostMemWrite : ∀ a0 a1, Statement (.hostMemWrite a0 a1) := by intro a0 a1 n h; cases h
theorem releaseWrite : ∀ a0, Statement (.releaseWrite a0) := by intro a0 n h; cases h
theorem releaseComplete : Statement (.releaseComplete) := by intro n h; cases h
theorem modnumWrite : ∀ a0, Statement (.modnumWrite a0) := by intro a0 n h; cases h
theorem qtableWrite : ∀ a0, Statement (.qtableWrite a0) := by intro a0 n h; cases h
theorem regblockWrite : ∀ a0 a1, Statement (.regblockWrite a0 a1) := by intro a0 a1 n h; cases h
theorem mbctlNext : Statement (.mbctlNext) := by intro n h; cases h
theorem keypub : ∀ a0, Statement (.keypub a0) := by intro a0 n h; cases h
theorem settime : ∀ a0, Statement (.settime a0) := by intro a0 n h; cases h
theorem stampcfg : ∀ a0, Statement (.stampcfg a0) := by intro a0 n h; cases h
theorem ringcfg : ∀ a0, Statement (.ringcfg a0) := by intro a0 n h; cases h
theorem lock : ∀ a0, Statement (.lock a0) := by intro a0 n h; cases h
theorem spareq : ∀ a0, Statement (.spareq a0) := by intro a0 n h; cases h
theorem checkpoint : ∀ a0, Statement (.checkpoint a0) := by intro a0 n h; cases h
theorem checkpointDone : Statement (.checkpointDone) := by intro n h; cases h
theorem restore : ∀ a0, Statement (.restore a0) := by intro a0 n h; cases h
theorem readsafe : ∀ a0, Statement (.readsafe a0) := by intro a0 n h; cases h
theorem readsafeDone : Statement (.readsafeDone) := by intro n h; cases h
theorem mkeyset : ∀ a0, Statement (.mkeyset a0) := by intro a0 n h; cases h
theorem mkeyget : ∀ a0, Statement (.mkeyget a0) := by intro a0 n h; cases h
theorem configScrub : Statement (.configScrub) := by intro n h; cases h
theorem patrolScrub : Statement (.patrolScrub) := by intro n h; cases h
theorem linkFlitReplay : ∀ a0, Statement (.linkFlitReplay a0) := by intro a0 n h; cases h
theorem unitRetire : ∀ a0, Statement (.unitRetire a0) := by intro a0 n h; cases h
theorem portDown : ∀ a0, Statement (.portDown a0) := by intro a0 n h; cases h
theorem thermalThrottle : ∀ a0, Statement (.thermalThrottle a0) := by intro a0 n h; cases h
theorem thermalShutdown : Statement (.thermalShutdown) := by intro n h; cases h
theorem deviceReset : Statement (.deviceReset) := by intro n h; cases h
theorem cycle : Statement (.cycle) := by intro n h; cases h
theorem illegalInstruction : ∀ a0, Statement (.illegalInstruction a0) := by intro a0 n h; cases h
theorem fetchFault : ∀ a0 a1, Statement (.fetchFault a0 a1) := by intro a0 a1 n h; cases h
theorem portUp : ∀ a0, Statement (.portUp a0) := by intro a0 n h; cases h
theorem coldReset : Statement (.coldReset) := by intro n h; cases h
theorem thermalThrottleEnd : ∀ a0, Statement (.thermalThrottleEnd a0) := by intro a0 n h; cases h
theorem softError : ∀ a0 a1, Statement (.softError a0 a1) := by intro a0 a1 n h; cases h

end Sys2Proof.Laws.WordBound
end

