-- ==== Sys2Proof/Safety.lean ====
section
/-! DEFINITION. Safe runs: a run is safe while every step answers a next state. -/

namespace Sys2Proof.Machine

/-- The step from s answers the next state t. -/
def StepsTo (s t : State) : Prop := step s = .next t

/-- t is reached from s by steps that each answer a next state. -/
inductive Reaches : State → State → Prop where
  | refl (s : State) : Reaches s s
  | tail {s t u : State} : Reaches s t → StepsTo t u → Reaches s u

/-- A state from which no run stops. -/
def Safe (s : State) : Prop := ∀ t, Reaches s t → ∃ u, StepsTo t u

end Sys2Proof.Machine
end

