-- ==== Sys2Proof/Tests/Build.lean ====
section
/-! SUPPORT. Small states for the tests and the witnesses: core 0 running with one page mapped, and a graph with one page on
plane 0 of region 0 of core 0. -/

namespace Sys2Proof.Tests

/- Each proof is checked before the next one begins, so that the checks do not wait for one another in memory. -/
set_option Elab.async false

open Machine Claims

/-- The first 64 KiB of address space 0 at physical address 0, for loads, stores, fetches and user mode (R262). -/
def page : TlbEntry := ⟨0, 0, 16, 0x1D⟩

/-- A running core at 0x1000 with a handler at 0x2000, in supervisor mode. -/
def core0 : Core := { Core.reset with run := .running, pc := 0x1000, tvec := 0x2000, dtlb := [page], itlb := [page] }

/-- The module with core 0 as given. -/
def machine (k : Core) : State := { State.reset with cores := [(0, k)] }

/-- Core 0 with registers, listed by number. -/
def regs (l : List (Nat × Word)) : State := machine { core0 with x := l }

/-- What holds after an instruction that gives a next state. -/
def gives (i : Instr) (s : State) (p : State → Bool) : Bool :=
  match exec i s with
  | .next t => p t
  | _ => false

/-- A frame with an opcode, MOD or RMOD, the sources of its operands all ports, and RLVL 0. -/
def frame (op mod : Nat) : FrameBits := BitVec.ofNat 256 (op * 2 ^ 232 + mod * 2 ^ 208)

/-- Graph 0 runs one instant of page 0 on region 0 of core 0. -/
def graph0 : Graph := { Graph.free with live := true, st := .run, pages := [(0, 0, 0)], running := [0] }

/-- Site i of the page. -/
def at_ (i : Fin 16) : Elt := ⟨0, 0, i, 0⟩

/-- The page's region, its plane 0 ACTIVE. -/
def region0 : Region := { Region.reset with planes := [(0, ⟨.active, some 0, 0, 0, 0⟩)] }

/-- The module with graph 0 as given and sites of its page. -/
def fabricOf (x : Graph) (l : List (Fin 16 × SitePlane)) : State :=
  { machine core0 with graphs := [(0, x)], regions := [(0, region0)], sites := l.map fun p => (eltKey (at_ p.1), p.2) }

/-- The module with graph 0 and sites of its page. -/
def fabric (l : List (Fin 16 × SitePlane)) : State := fabricOf graph0 l

/-- Port stages with their heads. -/
def heads (l : List (Nat × Token)) : SMap Stage := l.map fun p => (p.1, { Stage.empty with toks := [p.2] })

/-- A value token of lanes from lane 0 on, all valid. -/
def value (l : List Lane) : Token := ⟨0, false, false, BitVec.ofNat 16 (2 ^ l.length - 1), (List.range 16).map fun i => l.getD i 0⟩

/-- A stop of a level; level 6 stands for D. -/
def closing (n : Fin 7) : Token := ⟨Fin.ofNat 8 (n.val + 1), false, false, 0, List.replicate 16 0⟩

/-- A compute, fibre or matrix site with a frame and heads at its ports. -/
def site (f : FrameBits) (l : List (Nat × Token)) : SitePlane := { SitePlane.empty with comp := some f, ports := heads l }

/-- A site whose router element has a frame and heads. -/
def router (f : FrameBits) (l : List (Nat × Token)) : SitePlane := { SitePlane.empty with switch := some f, ports := heads l }

/-- A tile site with a frame and heads. -/
def tile (f : FrameBits) (l : List (Nat × Token)) : SitePlane := { SitePlane.empty with tileFr := some f, ports := heads l }

/-- The token that an output of a site holds for the next cycle. -/
def emitted (t : State) (i : Fin 16) (o : Nat) : Option Token := ((t.site (at_ i)).out o).nxt

/-- Generator 0 of the graph with part 0 and what has reached it. -/
def gen0 (f : FrameBits) (l : List Token) : Gen := { Gen.none with parts := [(0, f)], inq := ⟨l, true, 8⟩ }

/-- The module with generators of graph 0. -/
def genState (l : List (Nat × Gen)) : State := fabricOf { graph0 with gens := l } []

/-- Generator 0 of graph 0. -/
def g0 : GenAt := ⟨0, 0⟩

/-- Bytes of storage from an address on. -/
def bytesFrom (a : Nat) (bs : List Byte) : SMap Byte := bs.zipIdx.map fun p => (a + p.2, p.1)

/-! ### The hypotheses of the statements, to be decided -/

/-- Whether a computation succeeds. -/
def works {ε α : Type} (x : Except ε α) : Bool := match x with
  | .ok _ => true
  | .error _ => false

/-- Whether a computation gives v. -/
def answers {ε α : Type} [DecidableEq α] (x : Except ε α) (v : α) : Bool := match x with
  | .ok w => decide (w = v)
  | .error _ => false

theorem ok_iff {ε α : Type} [DecidableEq α] {x : Except ε α} {v : α} : x = .ok v ↔ answers x v = true := by
  cases x <;> simp [answers]

theorem canTrap_iff {s : State} : CanTrap s ↔ s.me.legal = true ∧ s.me.status.getLsbD 4 = false :=
  ⟨fun h => ⟨h.legal, h.nest⟩, fun h => ⟨h.1, h.2⟩⟩

theorem mayFire_iff {s : State} {g : GraphIx} {e : Elt} {r : Bool} : MayFire s g e r ↔
    (s.planeOf e).st = .active ∧ (s.planeOf e).owner = some g ∧ (s.graph g).live = true ∧ (s.graph g).st = .run ∧ (s.graph g).frozen = false ∧
    (s.graph g).ctx = .running ∧ (∀ p : Fin 4, ((s.site { e with plane := p }).half r).fired = false) ∧ (s.site e).elem.send = none :=
  ⟨fun h => ⟨h.active, h.owner, h.live, h.run, h.thawed, h.ctx, h.fresh, h.quiet⟩, fun ⟨a, b, c, d, e, f, g, h⟩ => ⟨a, b, c, d, e, f, g, h⟩⟩

theorem cellAt_iff {s : State} {g : GraphIx} {e : Elt} {f : FrameBits} {op : Nat} : CellAt s g e f op ↔
    MayFire s g e false ∧ (s.site e).elem.drain = none ∧ (s.site e).comp = some f ∧ opcOf f = op :=
  ⟨fun h => ⟨h.may, h.calm, h.comp, h.op⟩, fun ⟨a, b, c, d⟩ => ⟨a, b, c, d⟩⟩

theorem routerAt_iff {s : State} {g : GraphIx} {e : Elt} {f : FrameBits} {op : Nat} : RouterAt s g e f op ↔
    MayFire s g e true ∧ (s.site e).rout.drain = none ∧ (s.site e).switch = some f ∧ opcOf f = op :=
  ⟨fun h => ⟨h.may, h.calm, h.frame, h.op⟩, fun ⟨a, b, c, d⟩ => ⟨a, b, c, d⟩⟩

theorem tileAt_iff {s : State} {g : GraphIx} {e : Elt} {f : FrameBits} {op : Nat} : TileAt s g e f op ↔
    MayFire s g e false ∧ (s.site e).elem.drain = none ∧ (s.site e).tileFr = some f ∧ opcOf f = op :=
  ⟨fun h => ⟨h.may, h.calm, h.frame, h.op⟩, fun ⟨a, b, c, d⟩ => ⟨a, b, c, d⟩⟩

theorem free_iff {s : State} {g : GraphIx} {e : Elt} {o : Nat} : Free s g e o ↔ (s.envOf g e).free.contains o = true := Iff.rfl

/-- Whether a head satisfies q. -/
def headIs (h : Option Token) (q : Token → Bool) : Bool := match h with
  | some t => q t
  | none => false

theorem headIs_iff {h : Option Token} {q : Token → Bool} : headIs h q = true ↔ ∃ t, h = some t ∧ q t = true := by
  cases h <;> simp [headIs]

theorem values_iff {s : State} {e : Elt} {l : List Nat} : Values s e l ↔
    l ≠ [] ∧ ∀ p ∈ l, headIs ((s.site e).head p) (fun t => t.kind = 0 && !t.err) = true := by
  simp [Values, headIs_iff]

theorem stops_iff {s : State} {e : Elt} {l : List Nat} {k : Fin 8} : Stops s e l k ↔
    l ≠ [] ∧ k ≠ 0 ∧ ∀ p ∈ l, headIs ((s.site e).head p) (fun t => t.kind = k && !t.err) = true := by
  simp [Stops, headIs_iff]

theorem noErrors_iff {s : State} {e : Elt} {l : List Nat} : NoErrors s e l ↔
    ∀ p ∈ l, headIs ((s.site e).head p) (·.err) = false := by
  constructor
  · intro h p m
    cases e : (s.site e).head p with
    | none => rfl
    | some t => exact h p m t e
  · intro h p m k e
    have := h p m
    rw [e] at this
    exact this

theorem valueAt_iff {s : State} {e : Elt} {p : Nat} {k : Token} : ValueAt s e p k ↔ (s.site e).head p = some k ∧ k.kind = 0 ∧ k.err = false :=
  Iff.rfl

theorem stopAt_iff {s : State} {e : Elt} {p : Nat} {k : Token} : StopAt s e p k ↔ (s.site e).head p = some k ∧ k.kind ≠ 0 ∧ k.err = false :=
  Iff.rfl

/-- Nothing stands at a port. -/
theorem not_valueAt {s : State} {e : Elt} {p : Nat} (h : (s.site e).head p = none) (k : Token) : ¬ValueAt s e p k :=
  fun v => by have e := h.symm.trans v.1; contradiction

theorem rises_iff {l : Option Int} {c : Int} : Rises l c ↔ l.all (· < c) = true := by
  cases l <;> simp [Rises]

theorem genReady_iff {s : State} {g : GenAt} {op : Nat} : GenReady s g op ↔
    s.genRuns g op = true ∧ (s.gen g).half.drain = none ∧ (s.gen g).line.length < 64 ∧ ((s.genDeliver g).gen g).halt = false ∧
      ∀ i ∈ ((s.genDeliver g).gen g).line, i.owed = none :=
  ⟨fun h => ⟨h.runs, h.calm, h.room, h.go, h.paid⟩, fun ⟨a, b, c, d, e⟩ => ⟨a, b, c, d, e⟩⟩

theorem meets_iff {s : State} {g : GenAt} {t : Token} : Meets s g t ↔ (s.gen g).inq.toks.head? = some t ∧ t.err = false := Iff.rfl

theorem stepReady_iff {s : State} {e : Elt} {f fa fb : FrameBits} {op : Nat} : StepReady s e f fa fb op ↔
    e.site = 5 ∧ (op = 0x40 ∨ op = 0x41 ∨ op = 0x44) ∧ mxMayStep op f (s.site e) = true ∧ (s.site { e with site := 2 }).tileFr = some fa ∧
    (s.site { e with site := 13 }).tileFr = some fb ∧ (s.site { e with site := 2 }).tile.ring.get 0 (s.site { e with site := 2 }).tile.cp = 0x80 ∧
    (s.site { e with site := 13 }).tile.ring.get 0 (s.site { e with site := 13 }).tile.cp = 0x80 ∧ s.badWords { e with site := 2 } = [] ∧
    s.badWords { e with site := 13 } = [] :=
  ⟨fun h => ⟨h.node, h.code, h.may, h.tileA, h.tileB, h.fullA, h.fullB, h.goodA, h.goodB⟩, fun ⟨a, b, c, d, e, f, g, h, i⟩ => ⟨a, b, c, d, e, f, g, h, i⟩⟩

end Sys2Proof.Tests
end

