-- ==== Sys2Proof/Tests/Slice0.lean ====
section
/-! SUPPORT. Tests: an ill-formed term for each check of WellFormed, every scalar word written out field by field from R48-R56,
the worked examples of the spec, and one step of an instruction on a small state. -/

namespace Sys2Proof.Tests

/- Each proof is checked before the next one begins, so that the checks do not wait for one another in memory. -/
set_option Elab.async false

open Machine

/-! ### Well-formedness: each check refuses a term -/

theorem test_wf_cellCode : wfFailure (.cell 1 2 3 0x25) = some .cellCode := by decide
theorem test_wf_fenceScope : wfFailure (.fence 6) = some .fenceScope := by decide
theorem test_wf_amoOp : wfFailure (.amo 1 2 3 7 0 0) = some .amoOp := by decide
theorem test_wf_amoScope : wfFailure (.amo 1 2 3 0 0 6) = some .amoScope := by decide
theorem test_wf_site : wfFailure (.fadd (at_ 2)) = some .site ∧ wfFailure (.sprd (at_ 0)) = some .site ∧
    wfFailure (.mma (at_ 7)) = some .site ∧ wfFailure (.fscanc (at_ 5)) = some .site := by decide
theorem test_wf_hostRange : wfFailure (.hostMemWrite (384 * 2 ^ 30) [1]) = some .hostRange ∧
    wfFailure (.hostMemRead (384 * 2 ^ 30 - 8) 8) = none := by decide
theorem test_wf_regOffset : wfFailure (.regblockWrite 0x00C 1) = some .regOffset := by decide
theorem test_wf_fetchCause : wfFailure (.fetchFault 0x26 0) = some .fetchCause := by decide
theorem test_wf_good : wfFailure (.cell 1 2 3 0x2D) = none ∧ wfFailure (.amo 1 2 3 6 1 5) = none ∧
    wfFailure (.fadd (at_ 0)) = none ∧ wfFailure (.sprd (at_ 2)) = none := by decide

/-! ### Words -/

/-- A word decodes to an instruction, alone and as the opcode table numbers it, and the instruction has that word. -/
def reads (p : Nat × Instr) : Bool :=
  (match decodeWord p.1 with
    | .ok i => decide (i = p.2)
    | .error _ => false) && decide (decodeTableWord 32 p.1 = some p.2) && decide (encodeNat p.2 = some p.1)

/-- The words of R50-R56, field by field: integer operations. -/
theorem test_words_integer_operations : ∀ p ∈ ([
    (0b00000000_001000_000011_000101_000001, .add 5 3 8),
    (0b00000001_001000_000011_000101_000001, .sub 5 3 8),
    (0b00000010_001000_000011_000101_000001, .mul 5 3 8),
    (0b00000011_001000_000011_000101_000001, .mulh 5 3 8),
    (0b00000100_001000_000011_000101_000001, .mulhu 5 3 8),
    (0b00000101_001000_000011_000101_000001, .div 5 3 8),
    (0b00000110_001000_000011_000101_000001, .divu 5 3 8),
    (0b00000111_001000_000011_000101_000001, .rem 5 3 8),
    (0b00001000_001000_000011_000101_000001, .remu 5 3 8),
    (0b00001001_001000_000011_000101_000001, .and 5 3 8),
    (0b00001010_001000_000011_000101_000001, .or 5 3 8),
    (0b00001011_001000_000011_000101_000001, .xor 5 3 8),
    (0b00001100_001000_000011_000101_000001, .shl 5 3 8),
    (0b00001101_001000_000011_000101_000001, .shr 5 3 8),
    (0b00001110_001000_000011_000101_000001, .sra 5 3 8),
    (0b00001111_001000_000011_000101_000001, .slt 5 3 8),
    (0b00010000_001000_000011_000101_000001, .sltu 5 3 8),
    (0b00010001_001000_000011_000101_000001, .min 5 3 8),
    (0b00010010_001000_000011_000101_000001, .max 5 3 8)] : List (Nat × Instr)), reads p = true := by decide

/-- The words of R50-R56, field by field: immediates. -/
theorem test_words_immediates : ∀ p ∈ ([
    (0b10011010_0101_00_000011_000101_000010, .addi 5 3 0x9A5),
    (0b10011010_0101_00_000011_000101_000011, .andi 5 3 0x9A5),
    (0b10011010_0101_00_000011_000101_000100, .ori 5 3 0x9A5),
    (0b10011010_0101_00_000011_000101_000101, .xori 5 3 0x9A5),
    (0b10011010_0101_00_000011_000101_000110, .slti 5 3 0x9A5),
    (0b000000_10_0101_00_000011_000101_000111, .shli 5 3 0x25),
    (0b000000_10_0101_01_000011_000101_000111, .shri 5 3 0x25),
    (0b000000_10_0101_10_000011_000101_000111, .srai 5 3 0x25),
    (0b10011010_010111_000011_000101_001000, .lui 5 0x9A5C3),
    (0b10011010_010111_000011_000101_001001, .pcrel 5 0x9A5C3),
    (0b00000000_000000_000011_000101_001010, .clz 5 3),
    (0b00000001_000000_000011_000101_001010, .popc 5 3)] : List (Nat × Instr)), reads p = true := by decide

/-- The words of R50-R56, field by field: jumps, branches and CELL. -/
theorem test_words_jumps_branches_and_cell : ∀ p ∈ ([
    (0b10011010_010111_000011_000101_001011, .jal 5 0x9A5C3),
    (0b10011010_0101_00_000011_000101_001100, .jalr 5 3 0x9A5),
    (0b00101101_001000_000011_000101_001110, .cell 5 3 8 0x2D),
    (0b00_001001_001000_000011_000101_001111, .cell3 5 3 8 9),
    (0b10100101_001000_000011_110011_010000, .beq 3 8 0x2973),
    (0b10100101_001000_000011_110011_010001, .bne 3 8 0x2973),
    (0b10100101_001000_000011_110011_010010, .blt 3 8 0x2973),
    (0b10100101_001000_000011_110011_010011, .bge 3 8 0x2973),
    (0b10100101_001000_000011_110011_010100, .bltu 3 8 0x2973),
    (0b10100101_001000_000011_110011_010101, .bgeu 3 8 0x2973)] : List (Nat × Instr)), reads p = true := by decide

/-- The words of R50-R56, field by field: loads and stores. -/
theorem test_words_loads_and_stores : ∀ p ∈ ([
    (0b10011010_0101_00_000011_000101_011000, .ldb 5 3 0x9A5),
    (0b10011010_0101_00_000011_000101_011001, .ldbu 5 3 0x9A5),
    (0b10011010_0101_00_000011_000101_011010, .ldh 5 3 0x9A5),
    (0b10011010_0101_00_000011_000101_011011, .ldhu 5 3 0x9A5),
    (0b10011010_0101_00_000011_000101_011100, .ldw 5 3 0x9A5),
    (0b10011010_0101_00_000011_000101_011101, .ldwu 5 3 0x9A5),
    (0b10011010_0101_00_000011_000101_011110, .ldd 5 3 0x9A5),
    (0b00_100101_001000_000011_110011_100000, .stb 3 8 0x973),
    (0b00_100101_001000_000011_110011_100001, .sth 3 8 0x973),
    (0b00_100101_001000_000011_110011_100010, .stw 3 8 0x973),
    (0b00_100101_001000_000011_110011_100011, .std 3 8 0x973)] : List (Nat × Instr)), reads p = true := by decide

/-- The words of R50-R56, field by field: fabric commands. -/
theorem test_words_fabric_commands : ∀ p ∈ ([
    (0b000000_10_001000_000011_000101_101000, .cfgload 5 3 8 2),
    (0b000000_10_000000_000011_000000_101001, .cfgdrop 3 2),
    (0b00000000_000000_000011_000101_101010, .glaunch 5 3),
    (0b00_110011_000000_000011_000101_101011, .qpush 5 3 51),
    (0b00_100101_000000_000011_000000_101100, .sigemit 3 37),
    (0b00_100101_000000_000011_000101_101101, .sigread 5 3 37),
    (0b00000000_001000_000011_000000_101110, .armsec 3 8),
    (0b00000000_000000_000011_000101_101111, .gwait 5 3)] : List (Nat × Instr)), reads p = true := by decide

/-- The words of R50-R56, field by field: synchronisation. -/
theorem test_words_synchronisation : ∀ p ∈ ([
    (0b00000_101_000000_000000_000000_110000, .fence 5),
    (0b0_100_1_101_001000_000011_000101_110001, .amo 5 3 8 0x5 1 4),
    (0b101010_00_001000_000011_000000_110010, .chsend 3 8 42),
    (0b101010_01_000000_000000_000101_110010, .chrecv 5 42),
    (0b101010_10_000000_000000_000101_110010, .chpoll 5 42),
    (0b00000000_001000_000011_000000_110011, .barinit 3 8),
    (0b00000001_000000_000011_000000_110011, .bararr 3),
    (0b00000010_000000_000011_000101_110011, .barwait 5 3),
    (0b00000011_000000_000011_000000_110011, .barinv 3)] : List (Nat × Instr)), reads p = true := by decide

/-- The words of R50-R56, field by field: system instructions. -/
theorem test_words_system_instructions : ∀ p ∈ ([
    (0b00000000_100110_100101_000000_111000, .trap 0x9A5),
    (0b00000001_000000_000000_000000_111000, .tret),
    (0b00000010_000000_000000_000000_111000, .waiti),
    (0b00000011_100110_100101_000000_111000, .brk 0x9A5),
    (0b00000000_1100_00_000000_000101_111001, .crr 5 0xC),
    (0b00000000_1100_00_000011_000000_111010, .crw 3 0xC),
    (0b00_101010_000000_000011_000000_111011, .hdlset 3 42)] : List (Nat × Instr)), reads p = true := by decide

/-- The table of worked encodings after R60, and the words that the text below it reads. -/
theorem test_words_worked : ∀ p ∈ ([
    (0x008030DE, .ldd 3 3 8), (0x001C6141, .add 5 6 7), (0x011C6141, .sub 5 6 7), (0x03F8A247, .srai 9 10 63),
    (0x3F1C2C23, .std 2 7 0xFF0), (0xFF004F91, .bne 4 0 0x3FFE), (0x0004004B, .jal 1 0x40), (0x00040041, .add 1 0 1),
    (0x08040041, .remu 1 0 1)] : List (Nat × Instr)), reads p = true := by decide

/-- R57, R61: words that decode to no instruction. -/
theorem test_words_illegal : decodeWord 0x14040041 = .error .selector ∧ decodeWord 0 = .error .major ∧
    decodeWord 0x04000007 = .error .reserved ∧ decodeWord 0x40000020 = .error .reserved ∧
    decodeWord 0x4000000F = .error .reserved ∧ decodeWord 0x2600000E = .error .cellCode ∧
    decodeWord 0x01001038 = .error .reserved ∧ decodeWord 0x0000003C = .error .major ∧
    decodeWord 0x00001039 = .error .reserved ∧ decodeWord 0x0000007A = .error .reserved := ⟨rfl, rfl, rfl, rfl, rfl, rfl, rfl, rfl, rfl, rfl⟩

/-- The bytes of LDD x3, 8(x3) as the table gives them, followed by others. -/
theorem test_decode_bytes : decode [0xDE, 0x30, 0x80, 0x00, 0x41] = .ok (.ldd 3 3 8, [0x41]) := by rfl

/-! ### One step of the scalar core -/

/-- The register that an instruction leaves. -/
def regAfter (i : Instr) (l : List (Nat × Word)) (r : Reg) : Option Word :=
  match exec i (regs l) with
  | .next t => some (t.reg r)
  | _ => none

/-- The pc, the cause and TVAL after an instruction. -/
def trapAfter (i : Instr) (l : List (Nat × Word)) : Option (Word × Word × Word) :=
  match exec i (regs l) with
  | .next t => some (t.me.pc, t.me.tcause, t.me.tval)
  | _ => none

/-- The text after R63. -/
theorem test_mulh : regAfter (.mulh 3 1 2) [(1, 0x8000000000000000), (2, 0x8000000000000000)] 3 = some 0x4000000000000000 ∧
    regAfter (.mulh 3 1 2) [(1, 0xFFFFFFFFFFFFFFFF), (2, 2)] 3 = some 0xFFFFFFFFFFFFFFFF := by decide
theorem test_mulhu : regAfter (.mulhu 3 1 2) [(1, 0x8000000000000000), (2, 0x8000000000000000)] 3 = some 0x4000000000000000 ∧
    regAfter (.mulhu 3 1 2) [(1, 0xFFFFFFFFFFFFFFFF), (2, 2)] 3 = some 1 := by decide
/-- R64: -11 by 3, a division by zero, and the overflow. -/
theorem test_div : regAfter (.div 3 1 2) [(1, -11), (2, 3)] 3 = some 0xFFFFFFFFFFFFFFFD ∧
    regAfter (.div 3 1 2) [] 3 = some 0xFFFFFFFFFFFFFFFF ∧
    regAfter (.div 3 1 2) [(1, 0x8000000000000000), (2, -1)] 3 = some 0x8000000000000000 := by decide
theorem test_rem : regAfter (.rem 3 1 2) [(1, -11), (2, 3)] 3 = some 0xFFFFFFFFFFFFFFFE ∧ regAfter (.rem 3 1 2) [] 3 = some 0 ∧
    regAfter (.rem 3 1 2) [(1, 0x8000000000000000), (2, -1)] 3 = some 0 := by decide
theorem test_divu_remu : regAfter (.divu 3 1 2) [(1, -11), (2, 3)] 3 = some 0x5555555555555551 ∧
    regAfter (.remu 3 1 2) [(1, -11), (2, 3)] 3 = some 2 := by decide
/-- R63: the shift count is the low six bits; SRA keeps the sign. -/
theorem test_shifts : regAfter (.shl 3 1 2) [(1, 3), (2, 65)] 3 = some 6 ∧ regAfter (.shr 3 1 2) [(1, -8), (2, 1)] 3 = some 0x7FFFFFFFFFFFFFFC ∧
    regAfter (.sra 3 1 2) [(1, -8), (2, 1)] 3 = some (-4) ∧ regAfter (.srai 3 1 63) [(1, -8)] 3 = some (-1) := by decide
/-- R63: the signed and the unsigned order. -/
theorem test_order : regAfter (.slt 3 1 2) [(1, -1)] 3 = some 1 ∧ regAfter (.sltu 3 1 2) [(1, -1)] 3 = some 0 ∧
    regAfter (.min 3 1 2) [(1, -1), (2, 1)] 3 = some (-1) ∧ regAfter (.max 3 1 2) [(1, -1), (2, 1)] 3 = some 1 := by decide
/-- R65: the text after the table. -/
theorem test_immediates : regAfter (.andi 3 1 0xFFF) [(1, 0x123456789)] 3 = some 0x123456789 ∧
    regAfter (.xori 3 1 0xFFF) [(1, 5)] 3 = some 0xFFFFFFFFFFFFFFFA ∧ regAfter (.addi 3 1 0x800) [] 3 = some (-2048) ∧
    regAfter (.slti 3 1 0xFFF) [(1, -2)] 3 = some 1 := by decide
/-- R67, R68. -/
theorem test_lui_pcrel : regAfter (.lui 3 0x80000) [] 3 = some 0xFFFFFFFF80000000 ∧ regAfter (.pcrel 3 0xFFFFF) [] 3 = some 0 := by decide
theorem test_clz_popc : regAfter (.clz 3 1) [] 3 = some 64 ∧ regAfter (.clz 3 1) [(1, 1)] 3 = some 63 ∧
    regAfter (.popc 3 1) [(1, 0xF0F0)] 3 = some 8 := by decide
/-- R9: x0 reads as zero after a write. -/
theorem test_x0 : regAfter (.addi 0 1 5) [(1, 7)] 0 = some 0 := by decide
/-- R69: BNE two instructions back, as the worked encoding has it. -/
theorem test_branch : trapAfter (.bne 4 0 0x3FFE) [(4, 1)] = some (0xFF8, 0, 0) ∧ trapAfter (.bne 4 0 0x3FFE) [] = some (0x1004, 0, 0) := by decide
/-- R70, R71: the link; the low bits of JALR's target are cleared; a target outside the range traps. -/
theorem test_jumps : trapAfter (.jal 1 0x40) [] = some (0x1100, 0, 0) ∧ regAfter (.jal 1 0x40) [] 1 = some 0x1004 ∧
    trapAfter (.jalr 5 5 7) [(5, 0x4000)] = some (0x4004, 0, 0) ∧ regAfter (.jalr 5 5 7) [(5, 0x4000)] 5 = some 0x1004 ∧
    trapAfter (.jalr 5 5 0) [(5, 0x10000000000000)] = some (0x2000, 0x20, 0x10000000000000) := by decide
/-- The example after R28: the load, and its two traps. -/
theorem test_ldd : regAfter (.ldd 3 3 8) [(3, 0x100)] 3 = some 0 ∧
    trapAfter (.ldd 3 3 8) [(3, 0x000FFFFFFFFFFFF4)] = some (0x2000, 0x20, 0x000FFFFFFFFFFFFC) ∧
    trapAfter (.ldd 3 3 8) [(3, 0x000FFFFFFFFFFFFC)] = some (0x2000, 0x20, 0x0010000000000004) := by decide
/-- R11, R72, R73: little-endian stores and the extension of loads. -/
theorem test_store_load : gives (.std 1 2 8) (regs [(1, 0x100), (2, 0x1122334455667788)]) (fun t =>
    decide ((t.byteAt (t.key 0x108)).toNat = 0x88) &&
    gives (.ldb 3 1 8) t (fun u => u.reg 3 = 0xFFFFFFFFFFFFFF88) && gives (.ldhu 3 1 9) t (fun u => u.reg 3 = 0x6677) &&
    gives (.ldw 3 1 12) t (fun u => u.reg 3 = 0x11223344)) = true := by decide
theorem test_narrow_stores : gives (.sth 1 2 0) (regs [(1, 0x100), (2, -2)]) (fun t =>
    gives (.ldwu 3 1 0) t (fun u => u.reg 3 = 0xFFFE)) = true := by decide
/-- R324: a CAS that succeeds and one that fails; the old value comes back sign-extended. -/
theorem test_amo : gives (.stw 1 2 0) (regs [(1, 0x100), (2, -5), (3, 9), (4, -5)]) (fun t =>
    gives (.amo 4 1 3 2 0 0) t (fun u => u.reg 4 = 0xFFFFFFFFFFFFFFFB && gives (.ldw 5 1 0) u (fun v => v.reg 5 = 9)) &&
    gives (.amo 3 1 4 2 0 0) t (fun u => gives (.ldw 5 1 0) u (fun v => v.reg 5 = -5))) = true := by decide
theorem test_amo_misaligned : trapAfter (.amo 4 1 3 0 1 0) [(1, 0x104)] = some (0x2000, 0x28, 0x104) := by decide
/-- R13, R76, R157: IADD of the example, wrapping; the high bits of the operand are ignored. -/
theorem test_cell : regAfter (.cell 3 1 2 0x10) [(1, 0x007FFFFFFF), (2, 1)] 3 = some 0xFF80000000 ∧
    regAfter (.cell 3 1 2 0x10) [(1, 0xAB00000005)] 3 = some 5 := by decide
theorem test_cell_saturates : gives (.cell 3 1 2 0x10) (machine { core0 with x := [(1, 0x007FFFFFFF), (2, 1)], cmod := 1 <<< 21 })
    (fun t => t.reg 3 = 0x007FFFFFFF) = true := by decide
/-- R23, R420: TRAP saves pc and status; TRET takes them back. -/
theorem test_trap_tret : gives (.trap 0x123) (regs []) (fun t =>
    t.me.epc = 0x1000 && t.me.tcause = 0xA9 && t.me.tval = 0x123 && t.me.status = 0x1C && t.me.pc = 0x2000 &&
    gives .tret t (fun u => u.me.pc = 0x1000 && u.me.status = 0xC)) = true := by decide
theorem test_brk : trapAfter (.brk 0xFFF) [] = some (0x2000, 0xAA, 0xFFF) := by decide
/-- R57, R59. -/
theorem test_illegal : trapAfter (.illegalInstruction 0x14040041) [] = some (0x2000, 0xA3, 0x14040041) := by decide
/-- R15, R58: user mode. -/
theorem test_user : gives .waiti (machine { core0 with status := 0 }) (fun t => t.me.tcause = 0xA4 && t.me.status = 0x14) = true ∧
    gives (.crw 1 0x001) (machine { core0 with status := 0 }) (fun t => t.me.tcause = 0xA2 && t.me.tval = 1) = true := by decide
/-- R14: COREID, and a number that no table assigns. -/
theorem test_crr : gives (.crr 3 0x007) { regs [] with cur := 77, cores := [(77, core0)] } (fun t => t.reg 3 = 77) = true ∧
    trapAfter (.crr 3 0x012) [] = some (0x2000, 0xA1, 0x12) := by decide
/-- R16: CLOCK holds the written value in the next cycle. -/
theorem test_crw_clock : gives (.crw 1 0x005) (regs [(1, 9)]) (fun t => gives .cycle t (fun u => u.me.clock = 9 &&
    gives .cycle u (fun v => v.me.clock = 10))) = true := by decide
/-- R326, R327: a message to the own endpoint comes back without bit 63; an empty queue answers 0xA5. -/
theorem test_channel : gives (.chsend 1 2 5) (regs [(2, -1)]) (fun t => gives (.chrecv 3 5) t (fun u => u.reg 3 = 0x7FFFFFFFFFFFFFFF)) = true ∧
    regAfter (.chpoll 3 5) [] 3 = some 0x80A5000000000000 := by decide
/-- R328, R329: a barrier of one arrival; a wait for a phase that is over. -/
theorem test_barrier : gives (.barinit 1 2) (regs [(1, 3), (2, 1)]) (fun t => gives (.bararr 1) t (fun u =>
    gives (.barwait 4 5) (u.updCore 0 fun k => { k with x := [(5, 0x100000003)] }) (fun v => v.reg 4 = 0 && v.me.pc = 0x100C))) = true ∧
    trapAfter (.bararr 1) [(1, 3)] = some (0x2000, 0x2A, 3) := by decide

/-! ### Arithmetic: the examples of 08, 13 and 19 -/

theorem test_fadd : fadd 0x3FF0000000 0x3C50000000 .rne = 0x3FF0000000 ∧ fadd 0x3FF0000000 0x3C50000000 .rup = 0x3FF0000001 := by decide
theorem test_fmul_flushes : fmul 0x1A70000000 0x1A70000000 .rne = 0 ∧ fmul 0x1A70000000 0x1A70000000 .rup = 0 := by decide
/-- R154, R155. -/
theorem test_zero_and_nan : fsub 0x3FF0000000 0x3FF0000000 .rne = 0 ∧ fsub 0x3FF0000000 0x3FF0000000 .rdn = 0x8000000000 ∧
    fmul 0 0x7FF0000000 .rne = 0x7FF8000000 ∧ fsub 0x7FF0000000 0x7FF0000000 .rne = 0x7FF8000000 := by decide
theorem test_intOut : intOut (2 ^ 31) false = 0xFF80000000 ∧ intOut (2 ^ 31) true = 0x007FFFFFFF := by decide
/-- R272: in E2M1, 2.5 rounds to 2 and 0.125 to 0. -/
theorem test_e2m1 : fmtE2m1.store (.fin false 5 (-1)) true = fmtE2m1.store (.fin false 2 0) true ∧
    (fmtE2m1.store (.fin false 1 (-3)) true).1 = 0 := by decide
/-- The worked step of 19: 64 and twice 2^-18 are summed exactly. -/
theorem test_matrix_entry : mxEntry 0 (mxDot [fmtE4m3.read 0x50, fmtE4m3.read 1, fmtE4m3.read 1] [fmtE4m3.read 0x50, fmtE4m3.read 1, fmtE4m3.read 1])
    = 0x42800001 ∧ accLane 0x42800001 = 0x40B0000020 := by decide
/-- The example after R196: the switch frame of STEER. -/
theorem test_switch_frame : let f : FrameBits := BitVec.ofNat 256 (0x8050020022000004 * 2 ^ 192)
    opcOf f = 2 ∧ modOf f = 0x2200 ∧ rlvlOf f = 1 ∧ frameSite f = 5 ∧ framePage f = 0 ∧ frameLayout f = 2 := by decide
/-- Checkpoint 2 of R394: the accepted lengths of the rows. -/
theorem test_accepted : let item := fun (t d : Int) => Claims.ints [t, d, 0]
    let rows := [[item 7 7, item 12 12, item 5 3, item 30 (-1)], [item 7 9, item 14 12, item 3 3, item 8 (-1)], [item 7 7, item 12 21, item 2 (-1)]]
    rows.map accepted = [2, 0, 1] ∧ (bestRow rows).map (fun k => (k.lane 0).toNat) = [7, 12, 5] := by decide
/-- R336: the cell of the example of 17 is the first of the store's brick 0 and the 228th of it. -/
theorem test_camera_cell : brickOf (4, 4, 3) = 0 ∧ slotOf (4, 4, 3) = 228 := by decide

/-! ### One firing -/

/-- R157, R171: IADD of two value tokens, wrapping; lanes valid in both only. -/
theorem test_iadd : gives (.iadd (at_ 0)) (fabric [(0, site (frame 0x10 0) [(0, value [0x7FFFFFFF, 2]), (1, value [1])])]) (fun t =>
    emitted t 0 0 = some (value [0xFF80000000])) = true := by decide
/-- R98: a stop at both operands passes, all other fields zero. -/
theorem test_stop : gives (.iadd (at_ 0)) (fabric [(0, site (frame 0x10 0) [(0, closing 1), (1, closing 1)])]) (fun t =>
    emitted t 0 0 = some (closing 1) && ((t.site (at_ 0)).head 0).isNone) = true := by decide
/-- R101: a value against a stop: cause 0x01, the kinds 0 and 1, ports A and B. -/
theorem test_mismatch : gives (.iadd (at_ 0)) (fabric [(0, site (frame 0x10 0) [(0, value [1]), (1, closing 0)])]) (fun t =>
    (emitted t 0 0).any fun k => k.err && k.lane 0 = BitVec.ofNat 40 (1 + 256 * (8 + 512 * 3))) = true := by decide
/-- R197, R200: STEER sends a value to X where bit KBIT of the control is 1 and to Y where it is 0. -/
theorem test_steer : gives (.steer (at_ 5)) (fabric [(5, router (frame 2 0x2200) [(3, value [7]), (5, value [4])])]) (fun t =>
      emitted t 5 1 = some (value [7]) && (emitted t 5 2).isNone) = true ∧
    gives (.steer (at_ 5)) (fabric [(5, router (frame 2 0x2200) [(3, value [7]), (5, value [3])])]) (fun t =>
      emitted t 5 2 = some (value [7])) = true := by decide
/-- R210: FSCANC over the range 3 to 5 emits coordinate and ordinal. -/
theorem test_fscanc : gives (.fscanc (at_ 7)) (fabric [(7, site (frame 0x50 0) [(0, value [3, 5])])]) (fun t =>
    emitted t 7 0 = some (value [3, 0])) = true := by decide
/-- R213: FISECT drops the smaller coordinate alone. -/
theorem test_fisect : gives (.fisect (at_ 8)) (fabric [(8, site (frame 0x54 0) [(0, value [3]), (1, value [5])])]) (fun t =>
    (emitted t 8 0).isNone && ((t.site (at_ 8)).head 0).isNone && ((t.site (at_ 8)).head 1).isSome) = true := by decide

end Sys2Proof.Tests
end

