-- ==== Sys2Proof/Tests/WitnessDevice.lean ====
section
/-! SUPPORT. Witnesses for the statements about chains, transfers, faults, collectives, the host, the mailboxes, repair, cycles and
resets: small states that meet the hypotheses of each clause together. -/

namespace Sys2Proof.Tests

/- Each proof is checked before the next one begins, so that the checks do not wait for one another in memory. -/
set_option Elab.async false

open Machine Claims

/-! ### Chains and transfers -/

/-- An entry of wave 5 that performs an index, or nothing. -/
def entry0 (idx : Option Token) (pred succ : Nat) : Entry := ⟨0, 0, 5, 1, pred, succ, idx, []⟩

/-- Generator 0, a chained load, with chain 3 in wave 5. -/
def chainOf (k : Chain) (cycle : Nat) : State :=
  let f : FrameBits := BitVec.ofNat 256 (8 * 2 ^ 232 + 2 * 2 ^ 224 + 3 * 2 ^ 218 + 0x400 * 2 ^ 121)
  let q := { gen0 f [] with parts := [(0, f), (1, BitVec.ofNat 256 ((5 * 2 ^ 48 + 4) * 2 ^ 160))] }
  { fabricOf { graph0 with chains := [(3, k)], gens := [(0, q)] } [] with cycle := cycle }

/-- A chain in wave 5. -/
def chain5 (way held : List Entry) : Chain := ⟨5, none, [], way, held, false, 0⟩

/-- Whether a generator's access faults. -/
def faults {α : Type} (x : Except GErr α) : Bool := match x with
  | .error (.fault _ _) => true
  | _ => false

theorem faults_iff {α : Type} {x : Except GErr α} : faults x = true ↔ ∃ c v, x = .error (.fault c v) := by
  cases x with
  | ok a => simp [faults]
  | error e => cases e <;> simp [faults]

/-- Translation tables of address space 0: they map 2^39 + 2^31 to 0. -/
def walkTables : SMap Byte := [(0, 1), (8, 3), (16, 0x1D)]

/-- A tile site of two stages of 64 or 128 bytes, and a run of 100 bytes on its way there from generator 0. -/
def transferOf (buf : Nat) : State :=
  { fabricOf { graph0 with gens := [(0, { gen0 (BitVec.ofNat 256 (2 ^ 232 + 2 ^ 10 + 2 * 2 ^ 6)) [] with
      xfer := [List.replicate 100 7], line := [⟨doneTok, true, none, none⟩, ⟨doneTok, false, none, none⟩] })] }
      [(2, { tile (BitVec.ofNat 256 (3 * 2 ^ 232 + 2 * 2 ^ 228 + buf * 2 ^ 216)) [] with stage := [(4, doneTok), (20, doneTok)] })] with cycle := 10 }

/-- A site whose element closes a group of signed digits and has been asked to skip. -/
def skipping (par : Bool) : State :=
  fabric [(2, { site (frame 0x38 0) [] with elem := { Half.reset with asked := [par] } })]

/-- R284, R285, R248-R250, R263, R264, R314, R165, R166: an entry that is held, one too many, one too late; one released, with and without a fault; a
chain stuck and one not; a reply; a run that fits and one that does not; walks; a stage token; a skip request of each parity. -/
theorem witness_ChainsAndTransfers :
    (let e := entry0 none 0 0
     (let s := chainOf (chain5 [e] []) 0
      let k := (s.graph 0).chain 3
      (s.graph 0).chainsRun = true ∧ k.way = [e] ∧ k.held.length < 64 ∧ s.sliceHeld 0 3 < 1024 ∧
      ¬(2 ^ 15 ≤ (e.wave + 2 ^ 16 - k.cur) % 2 ^ 16 ∨ (∃ h ∈ k.held, h.wave = e.wave ∧ h.seq = e.seq) ∨ (e.wave = k.cur ∧ e.seq ∈ k.done))) ∧
     (let s := chainOf (chain5 [e] (List.replicate 64 (entry0 none 7 0))) 0
      let k := (s.graph 0).chain 3
      (s.graph 0).chainsRun = true ∧ k.way = [e] ∧ 64 ≤ k.held.length) ∧
     (let s := chainOf { chain5 [e] [] with cur := 6 } 0
      let k := (s.graph 0).chain 3
      (s.graph 0).chainsRun = true ∧ k.way = [e] ∧ k.held.length < 64 ∧ s.sliceHeld 0 3 < 1024 ∧ 2 ^ 15 ≤ (e.wave + 2 ^ 16 - k.cur) % 2 ^ 16)) ∧
    (∀ e ∈ [entry0 none 0 0, entry0 none 0 2], let s := chainOf (chain5 [] [entry0 none 7 0, e]) 0
     let k := (s.graph 0).chain 3
     (s.graph 0).chainsRun = true ∧ k.held = [entry0 none 7 0] ++ e :: [] ∧ k.canRelease e = true ∧ (∀ h ∈ [entry0 none 7 0], k.canRelease h = false) ∧
     answers (gperformChained g0 3 e s) ((), s) = true) ∧
    (let e := entry0 (some (value [0])) 0 0
     let s := chainOf (chain5 [] [e]) 0
     let k := (s.graph 0).chain 3
     (s.graph 0).chainsRun = true ∧ k.held = [] ++ e :: [] ∧ k.canRelease e = true ∧ faults (gperformChained g0 3 e s) = true) ∧
    (let s := chainOf (chain5 [] [entry0 none 7 0]) (2 ^ 20)
     (s.graph 0).chainsRun = true ∧ ((s.graph 0).chain 3).oldest = some (entry0 none 7 0) ∧ ((s.graph 0).chain 3).stuck = false ∧
     ((s.graph 0).chain 3).since + 2 ^ 20 ≤ s.cycle) ∧
    (let s := chainOf (chain5 [] [entry0 none 7 0]) (2 ^ 20 - 1)
     (s.graph 0).chainsRun = true ∧ s.cycle < ((s.graph 0).chain 3).since + 2 ^ 20) ∧
    (let s := transferOf 1
     let q := s.gen g0
     q.line = [⟨doneTok, true, none, none⟩] ++ ⟨doneTok, false, none, none⟩ :: [] ∧
     ∀ i ∈ [(⟨doneTok, true, none, none⟩ : Item)], i.ready = true ∨ i.wait ≠ none ∨ i.owed ≠ none) ∧
    (∀ buf ∈ [1, 2], let s := transferOf buf
     let q := s.gen g0
     let e := at_ 2
     let f : FrameBits := BitVec.ofNat 256 (3 * 2 ^ 232 + 2 * 2 ^ 228 + buf * 2 ^ 216)
     q.xfer = List.replicate 100 7 :: [] ∧ (s.graph 0).place (gTpage q.f) = some (e.core, e.region) ∧ s.genTilePlane 0 q (gTpage q.f) = some e.plane ∧
     e.site = Fin.ofNat 16 (gTsite q.f) ∧ (s.site e).tileFr = some f ∧ (s.graph 0).dataRuns = true ∧ (s.site e).tile.status (s.site e).tile.pp = 0 ∧
     tileCen f = false ∧ tileBuf f = 64 * buf) ∧
    (let s : State := { State.reset with mem := walkTables }
     s.walk 0 (2 ^ 39 + 2 ^ 31) = .leaf 1 29 ∧ s.walk 1 0 = .fault 0x27) ∧
    (let s := transferOf 1
     s.actingFor (at_ 2) = some 0 ∧ ∃ p ∈ (s.site (at_ 2)).stage, p.1 ≤ s.cycle) ∧
    (∀ par ∈ [false, true], let s := skipping par
     let x := s.site (at_ 2)
     s.actingFor (at_ 2) = some 0 ∧ x.elem.asked = par :: [] ∧ x.rout.asked = [] ∧ x.skipPorts false ≠ [] ∧ x.elem.parity = false) := by
  refine ⟨⟨?_, ?_, ?_⟩, ?_, ?_, ?_, ?_, ?_, ?_, ?_, ?_, ?_⟩ <;> decide +kernel

/-! ### Faults in a graph -/

/-- A fault of a window. -/
def faultOf (cause : Byte) (w : Nat) (imp : Bool) : FaultInfo := { FaultInfo.none with cause := cause, window := w, imp := imp }

/-- A quiet graph with faults noted and raised, a store in a pocket, and a second plane that loads. -/
def faulted (raised noted : List FaultInfo) (dead : List Nat) (pocket : List PocketEntry) (ctx : CutState) : State :=
  let x := { graph0 with raised := raised, noted := noted, dead := dead, pocket := pocket, ctx := ctx, clean := 2, gens := [(0, { Gen.none with win := 3, parts := [(0, 0)] })] }
  { fabricOf x [] with
    regions := [(0, { Region.reset with planes := [(0, ⟨.active, some 0, 0, 0, 0⟩), (1, ⟨.loading, some 0, 0, 0, 0⟩)] })] }

/-- A store of four bytes held for a window. -/
def pocketed (w : Nat) (k : PocketKind) : PocketEntry := ⟨0, w, addrs 0x404 4, [1, 2, 3, 4], k⟩

/-- R402, R403, R407, R408, R411, R413: faults raised, in a graph that runs and in one being cut; one noted; two of one window in either order; one of a window
that cannot be replayed, one with a bad log and one with a good; a store that drains, one that is bad, one that is refused, one of a window that has not ended, and one while a fault stands. -/
theorem witness_GraphFaults :
    (∀ c ∈ [CutState.running, .draining, .saving], let s := faulted [faultOf 0x20 1 false] [] [] [] c
     (s.graph 0).raised ≠ [] ∧ (s.graph 0).ctx = c ∧ (0, 0, 0) ∈ (s.graph 0).pages ∧ ((s.region 0 0).plane 1).st = .loading) ∧
    (∀ w ∈ [0, 3], let f := faultOf 0x20 w false
     let s := faulted [] [f] [] [] .running
     let x := s.graph 0
     x.live = true ∧ x.noted = [f] ∧ x.raised = [] ∧ 2 ≤ x.clean ∧ x.pocket = [] ∧ x.dead = []) ∧
    (let a := { faultOf 0x2D 1 false with firing := 5 }
     let b := faultOf 0x20 1 false
     let s := faulted [] [a, b] [] [] .running
     let x := s.graph 0
     x.live = true ∧ x.noted = [a, b] ∧ x.raised = [] ∧ 2 ≤ x.clean ∧ x.pocket = [] ∧ x.dead = [] ∧ a.imp = false ∧ b.imp = false ∧
     b.window = a.window ∧ b.order < a.order) ∧
    (let f := faultOf 0x20 1 false
     let s := faulted [] [f] [1] [] .running
     let x := s.graph 0
     x.live = true ∧ x.noted = [f] ∧ x.raised = [] ∧ 2 ≤ x.clean ∧ x.pocket = [] ∧ f.imp = false ∧ f.window ∈ x.dead) ∧
    (∀ k ∈ [PocketKind.plain, .release], let e := pocketed 2 k
     let s := faulted [] [] [] [e] .running
     let x := s.graph 0
     x.raised = [] ∧ x.noted = [] ∧ x.pocket = [e] ∧ e.win < x.lowWin ∧ (e.kind = .plain ∨ e.kind = .release) ∧ e.pas.length = e.data.length ∧
     s.storeRefused e.pas = none ∧ s.unstorable e.pas = none ∧ ∀ p ∈ e.pas, p < blockBase) ∧
    (let e := pocketed 2 .plain
     let t := faulted [] [] [] [e] .running
     let s := { t with dv := { t.dv with locked := true, ranges := [(0, (0, 2 ^ 40))] } }
     let x := s.graph 0
     x.raised = [] ∧ x.noted = [] ∧ x.pocket = [e] ∧ e.win < x.lowWin ∧ e.pas.length = e.data.length ∧ s.storeRefused e.pas = some 0xB4) ∧
    (let f := faultOf 0x20 1 false
     let x := { (faulted [] [f] [] [] .running).graph 0 with logged := [⟨1, .spoiled 96⟩] }
     x.live = true ∧ x.noted = [f] ∧ x.raised = [] ∧ 2 ≤ x.clean ∧ x.pocket = [] ∧ f.imp = false ∧ x.dead = [] ∧ ∃ e ∈ x.logged, e.spoiled = true ∧ e.win = f.window) ∧
    (let f := faultOf 0x20 1 false
     let x := { (faulted [] [f] [] [] .running).graph 0 with logged := [⟨1, .choice true⟩] }
     x.live = true ∧ x.noted = [f] ∧ x.raised = [] ∧ 2 ≤ x.clean ∧ x.pocket = [] ∧ x.dead = [] ∧ ∀ e ∈ x.logged, e.spoiled = false) ∧
    (let e := pocketed 2 (.spoiled false)
     let x := (faulted [] [] [] [e] .running).graph 0
     x.raised = [] ∧ x.noted = [] ∧ x.pocket = [e] ∧ e.win < x.lowWin ∧ e.kind = .spoiled false) ∧
    (let e := pocketed 3 .plain
     let x := (faulted [] [] [] [e] .running).graph 0
     x.raised = [] ∧ x.noted = [] ∧ x.pocket = [e] ∧ x.lowWin ≤ e.win) ∧
    ((faulted [faultOf 0x20 1 false] [] [] [] .running).graph 0).raised ≠ [] := by
  refine ⟨?_, ?_, ?_, ?_, ?_, ?_, ?_, ?_, ?_, ?_, ?_⟩ <;> decide +kernel

/-! ### Collectives -/

/-- The address at which the tables map the first byte of storage. -/
def mappedTo (a : Nat) : Nat := 2 ^ 39 + 2 ^ 31 + a

/-- The descriptor of a member (R372). -/
def descOf (src dst count op ranks rank : Nat) : CollDesc :=
  leBytes 8 (mappedTo src) ++ leBytes 8 (mappedTo dst) ++ leBytes 4 count ++ [BitVec.ofNat 8 op, 2] ++ leBytes 2 ranks ++ leBytes 2 rank ++ leBytes 2 7 ++
  leBytes 4 0 ++ leBytes 8 (mappedTo 0x480) ++ List.replicate 24 0

/-- A request taken for a generator. -/
def collReq (n : Fin 256) (item : Nat) (d : CollDesc) (since : Nat) : CollReq := ⟨⟨0, n⟩, item, 0, 0, d, [0, 1], since⟩

/-- A member of two, of an operation, with its count, rank and buffers. -/
def member (op count rank : Nat) : CollDesc := descOf (0x500 + 0x40 * rank) (0x600 + 0x40 * rank) count op 2 rank

/-- Two generators that wait, the first with a request sent whose descriptor stands at 0x400. -/
def collState (d : CollDesc) (off : Nat) (colls : List CollReq) (cycle : Nat) : State :=
  let token : Token := value [BitVec.ofNat 40 (2 ^ 31 + 0x400 + off), 0x80]
  let q := fun (i : Nat) => { gen0 (BitVec.ofNat 256 (0x0C * 2 ^ 232)) [] with line := [⟨doneTok, false, some i, none⟩], reqs := [token, doneTok] }
  { fabricOf { graph0 with gens := [(0, q 4), (1, q 5)] } [] with
    mem := walkTables ++ (bytesFrom 0x400 d).filter (fun p => p.2 ≠ 0) ++ [(0x481, 1), (0x500, 9), (0x540, 200)], colls := colls, cycle := cycle }

/-- R371-R375: a descriptor that keeps its form, one with a rank too large, one at an address that is no multiple of 64, one that another disagrees with,
one of another die, one whose table cannot be read; an all-gather and a reduction whose
members have come; a member alone, just too long and not yet. -/
theorem witness_Collectives :
    (∀ c ∈ [(member 0 2 0, 0), (descOf 0x500 0x600 2 0 2 2, 0), (member 0 2 0, 4)],
     let k : Token := value [BitVec.ofNat 40 (2 ^ 31 + 0x400 + c.2), 0x80]
     let s := collState c.1 c.2 [] 3
     let q := s.gen ⟨0, 0⟩
     let a := ((k.lane 0).setWidth 32).toNat + 2 ^ 32 * (((k.lane 1).setWidth 32).toNat % 2 ^ 20)
     q.reqs = k :: [doneTok] ∧ q.line.findSome? (fun i => match i.wait with
       | some id => if s.colls.any fun r => r.src = ⟨0, 0⟩ && r.item = id then none else some id
       | none => none) = some 4 ∧
     (if c = (member 0 2 0, 0) then
       answers (s.engineRead 0 a 64) c.1 = true ∧ a % 64 = 0 ∧ descOk c.1 = true ∧ answers (s.engineRead 0 (CollDesc.memb c.1) (CollDesc.ranks c.1)) [0, 1] = true ∧
       (([0, 1] : List Byte).getD (CollDesc.rank c.1) 0).toNat = (4 * s.modnum + q.core.val / 64) % 256 ∧
       s.collPeers ⟨⟨0, 0⟩, 4, 0, 0, c.1, [0, 1], s.cycle⟩ = []
      else works (s.engineRead 0 a 64) = true ∧ (a % 64 ≠ 0 ∨ descOk c.1 = false))) ∧
    (let d := member 0 2 0
     let other := collReq 1 5 (member 1 2 1) 0
     let s := collState d 0 [other] 3
     let r : CollReq := ⟨⟨0, 0⟩, 4, 0, 0, d, [0, 1], s.cycle⟩
     answers (s.engineRead 0 (mappedTo 0x400) 64) d = true ∧ descOk d = true ∧ answers (s.engineRead 0 (CollDesc.memb d) (CollDesc.ranks d)) [0, 1] = true ∧
     (([0, 1] : List Byte).getD (CollDesc.rank d) 0).toNat = (4 * s.modnum + (s.gen ⟨0, 0⟩).core.val / 64) % 256 ∧
     ∃ p ∈ s.collPeers r, collDisagree r p = true) ∧
    (let d := member 0 2 1
     let s := collState d 0 [] 3
     answers (s.engineRead 0 (mappedTo 0x400) 64) d = true ∧ descOk d = true ∧ answers (s.engineRead 0 (CollDesc.memb d) (CollDesc.ranks d)) [0, 1] = true ∧
     (([0, 1] : List Byte).getD (CollDesc.rank d) 0).toNat ≠ (4 * s.modnum + (s.gen ⟨0, 0⟩).core.val / 64) % 256) ∧
    (let d := (member 0 2 0).take 32 ++ leBytes 8 0x480 ++ List.replicate 24 0
     let s := collState d 0 [] 3
     answers (s.engineRead 0 (mappedTo 0x400) 64) d = true ∧ descOk d = true ∧
     (match s.engineRead 0 (CollDesc.memb d) (CollDesc.ranks d) with | .error _ => true | .ok _ => false) = true) ∧
    (∀ op ∈ [0, 1], let l := [collReq 0 4 (member op 2 0) 0, collReq 1 5 (member op 2 1) 0]
     let s := collState (member op 2 0) 0 l 3
     s.colls.filter (fun r => CollDesc.tag r.desc = (7 : BitVec 16).toNat) = l ∧ s.collMembers (collReq 0 4 (member op 2 0) 0) = some l ∧ collOverlap l = false ∧
     (match firstError 0 (l.map fun r => s.engineRead r.asid (CollDesc.src r.desc) (CollDesc.srcLen r.desc)),
        firstError 0 (l.map fun r => s.enginePas r.asid .store (CollDesc.dstLen r.desc / 65536 + 2) (CollDesc.dst r.desc) (CollDesc.dstLen r.desc)) with
      | .ok bs, .ok pas => (s.collRefused (pas.zipIdx.map fun p => (p.1, collOut (member op 2 0) bs p.2))).isNone
      | _, _ => false) = true) ∧
    (CollDesc.op (member 1 2 0) = 1 ∧ CollDesc.op (member 0 2 0) = 0 ∧ CollDesc.dt (member 0 2 0) = 2 ∧
     ∀ n ∈ [0, 1], ∀ b ∈ [List.replicate 16 (255 : Byte), List.replicate 16 1], (n + 1) * CollDesc.count (member 0 2 0) * 4 ≤ b.length) ∧
    (∀ c ∈ [2 ^ 28 + 5, 2 ^ 28 + 4], let r := collReq 0 4 (member 0 2 0) 5
     let s := collState (member 0 2 0) 0 [r] c
     s.colls = [r] ∧ CollDesc.tag r.desc = (7 : BitVec 16).toNat ∧ (decide (r.since + 2 ^ 28 ≤ s.cycle) = decide (c = 2 ^ 28 + 5))) := by
  refine ⟨?_, ?_, ?_, ?_, ?_, ?_, ?_⟩ <;> decide +kernel

/-! ### The host -/

/-- A module whose RELEASE register holds a request for core 5, which is in a state. -/
def releasing (run : RunState) (v : Word) : State :=
  { machine core0 with cores := [(0, core0), (5, { core0 with run := run })], block := { State.reset.block with relReq := some v } }

/-- A module with an active barrier in the first line of the table of barriers. -/
def barred : State := { machine core0 with bartab := 1, mem := [(6, 1)] }

/-- The module with the state of the host's mailbox. -/
def boxed (busy : Bool) : State :=
  let s := machine core0
  { s with dv := { s.dv with host := { MailboxState.reset with busy := busy } } }

/-- R459, R460, R332, R466: a write to plain memory up to its last byte, and one to the line of an active barrier; RELEASE idle and busy; a release of a core that
is held, stopped, running, retired, and of another module's; MODNUM with and without a running core; the slot of a mailbox idle and busy, at its ends. -/
theorem witness_HostAccesses :
    (∀ off ∈ [0x400, devBytes - 2], let s := barred
     off + ([1, 2] : List Byte).length ≤ devBytes ∧ ∀ p ∈ addrs off ([1, 2] : List Byte).length, s.activeLine (s.key p) = false ∧ s.unstorable [p] = none) ∧
    (∀ off ∈ [0, 63], off < devBytes ∧ barred.activeLine (barred.key off) = true) ∧
    kept (machine core0).block.relstat 0 2 ≠ 1 ∧
    kept { (machine core0).block with relstat := 1 }.relstat 0 2 = 1 ∧
    (∀ r ∈ [RunState.held, .stopped], let v : Word := BitVec.ofNat 64 (5 * 2 ^ 52 + 0x1006)
     let s := releasing r v
     let c := releaseTarget v
     SMap.wf .reset s.cores = true ∧ s.block.relReq = some v ∧ ((s.core c).run = .held ∨ (s.core c).run = .stopped) ∧ v.toNat / 2 ^ 60 = 0) ∧
    (∀ p ∈ [(RunState.running, 0), (.retired, 0), (.held, 1)], let v : Word := BitVec.ofNat 64 (5 * 2 ^ 52 + p.2 * 2 ^ 60)
     let s := releasing p.1 v
     let c := releaseTarget v
     s.block.relReq = some v ∧ ((s.core c).run = .running ∨ (s.core c).run = .retired ∨ v.toNat / 2 ^ 60 ≠ 0)) ∧
    (∀ k ∈ State.reset.cores, k.2.run ≠ .running) ∧ (∃ k ∈ (machine core0).cores, k.2.run = .running) ∧
    (∀ o ∈ [0x200, 0x238], 0x200 ≤ (BitVec.ofNat 24 o).toNat ∧ (BitVec.ofNat 24 o).toNat < 0x240 ∧ (BitVec.ofNat 24 o).toNat % 8 = 0) ∧
    (boxed true).dv.host.busy = true ∧ (boxed false).dv.host.busy = false ∧ (boxed false).dv.host.req.length = 64 := by
  refine ⟨?_, ?_, ?_, ?_, ?_, ?_, ?_, ?_, ?_, ?_, ?_, ?_⟩ <;> decide +kernel

/-! ### The mailboxes -/

/-- A request with its operands at bytes 8, 16 and 24. -/
def reqOf (code b8 b16 b24 : Nat) : List Byte := leBytes 8 code ++ leBytes 8 b8 ++ leBytes 8 b16 ++ leBytes 8 b24 ++ List.replicate 32 0

/-- Dvorrok with a request of one mailbox first, another behind it. -/
def served (m : Mailbox) (req : List Byte) (service : Service) (locked : Bool) : State :=
  let s := machine core0
  let dv := { s.dv with order := [m, if m = Mailbox.host then Mailbox.management else Mailbox.host], service := service, locked := locked, time := 1000 }
  { s with dv := dv.setBox m { MailboxState.reset with req := req, busy := true } }

/-- The request of m is the first that waits, and names the command. -/
def First (s : State) (m : Mailbox) (code : Nat) : Prop := s.dv.order.head? = some m ∧ (s.dv.box m).busy = true ∧ byteNat (s.dv.box m).req 0 1 = code

/-- R471, R472, R473: each command that waits first, in each mailbox, before LOCK and after it; SETTIME at the present time and before it; the ranges at their
bounds; each command while a checkpoint or a READSAFE is under way; a second response. -/
theorem witness_MailboxesAndCheckpoints :
    (∀ m ∈ [Mailbox.host, .management],
      (∀ c ∈ [1, 2, 3, 4, 5, 6, 7, 8, 9, 0x0A, 0x0B], ∀ l ∈ [false, true], let s := served m (reqOf c 0 0 0) .idle l
       First s m c ∧ s.dv.service = .idle ∧ s.dv.locked = l) ∧
      (∀ c ∈ [2, 3, 4, 5, 0x0A, 0x0B], ∀ v ∈ [Service.saving none true, .saving (some m) false, .reading m], let s := served m (reqOf c 0 0 0) v false
       First s m c ∧ s.dv.service = v)) ∧
    (∀ t ∈ [1000, 999], let s := served .host (reqOf 2 t 0 0) .idle false
     First s .host 2 ∧ byteNat (s.dv.box .host).req 8 8 = t ∧ s.dv.time.toNat = 1000) ∧
    (∀ p ∈ [(hostBase, 0, 0), (hostBase, domBase - hostBase, 7)], let s := served .host (reqOf 3 p.1 p.2.1 p.2.2) .idle false
     let op := fun o n => byteNat (s.dv.box Mailbox.host).req o n
     First s .host 3 ∧ s.dv.locked = false ∧ op 8 8 % 4096 = 0 ∧ op 16 8 % 4096 = 0 ∧ op 24 1 ≤ 7 ∧ hostBase ≤ op 8 8 ∧ op 8 8 + op 16 8 ≤ domBase) ∧
    (∀ n ∈ [4, 20], let s := served .host (reqOf 4 0x1000 n 0x2000) .idle false
     let op := fun o n => byteNat (s.dv.box Mailbox.host).req o n
     First s .host 4 ∧ s.dv.locked = false ∧ 4 ≤ op 16 1 ∧ op 16 1 ≤ 20) ∧
    ({ MailboxState.reset with rsp2 := some [1] } : MailboxState).rsp2 = some [1] := by
  unfold First
  refine ⟨?_, ?_, ?_, ?_, ?_⟩ <;> decide +kernel

/-- What a checkpoint holds of the module after reset. -/
def kept0 : Snapshot := State.reset.snapshot

/-- R471, R472, R480, R481: CHECKPOINT first with none and with one under way; a checkpoint under way with no graph that runs; RESTORE with an operand in
the host window and outside it; READSAFE with no image and with one; a copy under way of no byte. -/
theorem witness_MailboxesAndCheckpoints_service :
    (∀ v ∈ [Service.idle, .saving none true], let s := served .host (reqOf 7 0 0 0) v false
     First s .host 7 ∧ s.dv.service = v) ∧
    (let s := served .management (reqOf 7 0 0 0) (.saving (some .host) true) false
     s.dv.service = .saving (some .host) true ∧ (∀ g ∈ s.graphIxs, (s.graph g).cuttable = false) ∧ (∀ p ∈ s.cores, p.2.between = true) ∧ SMap.wf .reset s.cores = true) ∧
    (∀ a ∈ [0, domBase], let t := served .host (reqOf 8 a 0 0) .idle false
     let s := { t with dv := { t.dv with safe := some kept0 } }
     s.dv.service = .idle ∧ First s .host 8 ∧ s.dv.safe.isSome = true ∧ window (byteNat (s.dv.box .host).req 8 8) ≠ .host) ∧
    (∀ i ∈ [Option.none, some kept0], let t := served .host (reqOf 9 hostBase 0 0) .idle false
     let s := { t with dv := { t.dv with safe := i } }
     s.dv.service = .idle ∧ First s .host 9 ∧ s.dv.safe.isSome = i.isSome) := by
  unfold First
  refine ⟨?_, ⟨?_, ?_, ?_⟩, ?_, ?_⟩
  case refine_3 =>
    intro g h
    have none_ : (served .management (reqOf 7 0 0 0) (.saving (some .host) true) false).graphIxs = [] := by decide +kernel
    rw [none_] at h
    exact absurd h List.not_mem_nil
  all_goals decide +kernel

/-- An address of the host window is its own storage key. -/
theorem key_host (s : State) (a : Nat) (h1 : hostBase ≤ a) (h2 : a < domBase) : window a = .host ∧ s.key a = a := by
  have w : window a = .host := by
    unfold window
    rw [if_neg (by simp only [devBytes, hostBase] at *; omega), if_neg (by simp only [devBytes, hostBase, localBase] at *; omega), if_pos ⟨h1, h2⟩]
  exact ⟨w, by simp only [State.key, w]⟩

/-- The host's memory holds the image of a checkpoint from the start of its window on. -/
def restoring : State :=
  let t := served .host (reqOf 8 hostBase 0 0) .idle false
  let s := { t with dv := { t.dv with safe := some kept0 } }
  s.storeBytes (addrs hostBase (Config.safeImage kept0).length) (Config.safeImage kept0)

/-- R471, R480: an image that stands in host memory. Its length is a constant that nothing here knows (log entry 48); it is one that the host window holds. -/
theorem witness_MailboxesAndCheckpoints_image (fits : (Config.safeImage kept0).length ≤ domBase - hostBase) :
    let s := restoring
    let op := fun o n => byteNat (s.dv.box Mailbox.host).req o n
    s.dv.service = .idle ∧ First s .host 8 ∧ s.dv.safe = some kept0 ∧ window (op 8 8) = .host ∧
    s.physBytes (op 8 8) (Config.safeImage kept0).length = Config.safeImage kept0 := by
  have d : restoring.dv = { (served .host (reqOf 8 hostBase 0 0) .idle false).dv with safe := some kept0 } := by
    unfold restoring
    rw [State.storeBytes_eq]
  have o : byteNat (restoring.dv.box .host).req 8 8 = hostBase := by
    rw [d]
    decide +kernel
  have f : First restoring .host 8 := by
    unfold First
    rw [d]
    decide +kernel
  refine ⟨by rw [d]; rfl, f, by rw [d], ?_, ?_⟩
  · show window (byteNat (restoring.dv.box .host).req 8 8) = _
    rw [o]
    decide
  · show restoring.physBytes (byteNat (restoring.dv.box .host).req 8 8) _ = _
    rw [o]
    apply List.ext_getElem
    · simp [State.physBytes, State.bytesAt, addrs]
    · intro i h1 h2
      have k : ∀ (s : State) (m : Nat), m < (Config.safeImage kept0).length → s.key (hostBase + m) = hostBase + m :=
        fun s m h => (key_host s _ (by omega) (by simp only [hostBase, domBase] at *; omega)).2
      have e := State.byteAt_storeBytes_same { served .host (reqOf 8 hostBase 0 0) .idle false with
          dv := { (served .host (reqOf 8 hostBase 0 0) .idle false).dv with safe := some kept0 } }
        (addrs hostBase (Config.safeImage kept0).length) (Config.safeImage kept0) i (by simpa [addrs] using h2) h2
      simp only [State.physBytes, State.bytesAt, addrs, List.getElem_map, List.getElem_range, k _ _ h2] at e ⊢
      refine e ?_ ?_ ?_
      · intro m hm lt
        rw [List.length_map, List.length_range] at hm
        rw [k _ _ hm]
        omega
      · intro lt
        simp only [hostBase, devBytes] at lt
        omega
      · simp only [hostBase, domBase, blockBase] at *
        omega

/-- R472: a copy under way of at most 64 bytes to the start of the host window. -/
theorem witness_MailboxesAndCheckpoints_copy :
    let t := served .host (reqOf 9 hostBase 3 64) (.reading .host) false
    let s := { t with dv := { t.dv with safe := some kept0 } }
    let op := fun o n => byteNat (s.dv.box Mailbox.host).req o n
    let bs := ((Config.safeImage kept0).drop (op 16 8)).take (op 24 8)
    s.dv.service = .reading .host ∧ s.dv.safe = some kept0 ∧ ∀ p ∈ addrs (op 8 8) bs.length, window p = .host := by
  have a : byteNat ((served .host (reqOf 9 hostBase 3 64) (.reading .host) false).dv.box .host).req 8 8 = hostBase := by decide +kernel
  have b : byteNat ((served .host (reqOf 9 hostBase 3 64) (.reading .host) false).dv.box .host).req 24 8 = 64 := by decide +kernel
  refine ⟨rfl, rfl, fun p h => ?_⟩
  change p ∈ addrs (byteNat ((served .host (reqOf 9 hostBase 3 64) (.reading .host) false).dv.box .host).req 8 8) _ at h
  rw [a, addrs, List.mem_map] at h
  obtain ⟨i, hi, rfl⟩ := h
  rw [List.mem_range, List.length_take] at hi
  change i < min (byteNat ((served .host (reqOf 9 hostBase 3 64) (.reading .host) false).dv.box .host).req 24 8) _ at hi
  rw [b] at hi
  exact (key_host .reset _ (by omega) (by simp only [hostBase, domBase]; omega)).1

/-! ### Repair -/

/-- A module with its repair state. -/
def repaired (r : Repair) : State := { fabric [] with repair := r }

/-- No repair. -/
def intact : Repair := State.reset.repair

/-- R463, R477, R478, R479, R481: a frame hit once, correctable and not; rows, link lanes and channels just not spent and spent; a slice not disabled; a region without an
owner and one with, and a core whose spare is taken or promised; entries of pockets and logs. -/
theorem witness_Reliability :
    (let r := { intact with badFrames := [(at_ 3, 1, false)] }
     (repaired r).repair.badFrames = [(at_ 3, 1, false)]) ∧
    (let s := repaired { intact with badFrames := [(at_ 3, 1, true)] }
     s.repair.badFrames = [(at_ 3, 1, true)] ∧ s.ownerOf (at_ 3) = some 0 ∧ (s.graph 0).started = true ∧ (s.graph 0).st ≠ .held ∧ (s.graph 0).raised = [] ∧
     (s.graph 0).noted = []) ∧
    (repaired { intact with rows := [(5, 1023)] }).repair.rows.get 0 5 < 1024 ∧
    1024 ≤ (repaired { intact with rows := [(5, 1024)] }).repair.rows.get 0 5 ∧
    (let n : Fin 256 := 8
     ∀ c ∈ (repaired { intact with channels := [7, 16] }).repair.channels, c.val / 8 ≠ n.val / 8) ∧
    (let n : Fin 256 := 8
     ∃ c ∈ (repaired { intact with channels := [15] }).repair.channels, c.val / 8 = n.val / 8) ∧
    (repaired { intact with lanes := [(3, 1)] }).repair.lanes.get 0 3 < 2 ∧ 2 ≤ (repaired { intact with lanes := [(3, 2)] }).repair.lanes.get 0 3 ∧
    (8, 3) ∉ (repaired { intact with slices := [(8, 2)] }).repair.slices ∧
    (let s := repaired { intact with regions := [(1, 2)], spareUsed := [1] }
     s.dv.service = .idle ∧ 0 ∉ s.repair.spareUsed ∧ (s.region 0 1).unowned = true ∧ (s.region 0 0).unowned = false ∧
     s.repair.regions.all (fun k => k.1 != 0) = true) ∧
    (∀ c ∈ [([], [(0, 2)]), ([(0 : CoreIx)], [])], let s := repaired { intact with regions := c.2, spareUsed := c.1 }
     s.dv.service = .idle ∧ (0, 1) ∉ s.repair.regions ∧ (0 ∈ s.repair.spareUsed ∨ ∃ k ∈ s.repair.regions, k.1 = 0)) ∧
    (let a : PocketEntry := ⟨0, 1, [0x404], [1], .plain⟩
     let b : PocketEntry := ⟨0, 2, [0x408], [2], .release⟩
     let l : LogEntry := ⟨1, .choice true⟩
     let x := (fabricOf { graph0 with pocket := [a, b], logged := [l, ⟨2, .state 64⟩] } []).graph 0
     x.pocket = [a] ++ b :: [] ∧ x.logged = [] ++ l :: [⟨2, .state 64⟩]) := by
  refine ⟨?_, ?_, ?_, ?_, ?_, ?_, ?_, ?_, ?_, ?_, ?_, ?_⟩ <;> decide +kernel

/-! ### Cycles and resets -/

/-- One move, by its parts. -/
theorem one_move {l : List Move} {e : Elt} {n : Nat} {to_ : List Target} {t : Token} (h : l.map (fun m => (m.e, m.src, m.to_, m.tok)) = [(e, n, to_, t)]) :
    l = [⟨e, n, to_, t⟩] := by
  obtain ⟨m, rfl, hm⟩ := List.map_eq_singleton_iff.mp h
  cases m
  simp only [Prod.mk.injEq] at hm
  obtain ⟨rfl, rfl, rfl, rfl⟩ := hm
  rfl

/-- Site 5, whose output Y holds a token that its switch sends east on track 0, with another behind it. -/
def moving : State :=
  fabric [(5, { router (BitVec.ofNat 256 (0x0B * 2 ^ 110)) [] with outs := [(2, ⟨some (value [4]), some (value [6])⟩)] })]

/-- R14, R16, R92, R93, R95, R473, R25: a second that is not over and one that is; a token that moves alone. -/
theorem witness_CyclesAndResets :
    (∀ n ∈ [1750000000 - 2, 1750000000 - 1], let t := machine core0
     let s := { t with dv := { t.dv with timeFrac := n } }
     decide (s.dv.timeFrac + 1 < 1750000000) = decide (n = 1750000000 - 2) ∧ SMap.wf .reset s.cores = true) ∧
    (let s := moving
     s.sites.flatMap (fun p => s.siteMoves (eltOf p.1)) = [⟨at_ 5, 9 + 2, [.link (at_ 6) 6], value [4]⟩] ∧
     s.repair.regions = [] ∧ (∀ x ∈ s.graphs, x.2.clone = [] ∧ ∀ q ∈ x.2.gens, q.2.out.cur = none) ∧ SMap.wf .empty s.sites = true ∧ s.waiters = [] ∧
     ∀ v, SMap.wf .empty (s.site v).links = true ∧ SMap.wf .empty (s.site v).outs = true) := by
  refine ⟨by decide +kernel, one_move ?_, ?_, ?_, ?_, ?_, ?_⟩
  · decide +kernel
  · decide +kernel
  · decide +kernel
  · decide +kernel
  · decide +kernel
  · intro v
    have only : moving.site v = .empty ∨ moving.site v = moving.site (at_ 5) := by
      by_cases h : eltKey (at_ 5) = eltKey v
      · exact .inr (by rw [State.site, State.site, h])
      · exact .inl (by simp only [State.site, moving, fabric, fabricOf, List.map_cons, List.map_nil, SMap.get, if_neg h])
    rcases only with h | h <;> rw [h] <;> decide +kernel

end Sys2Proof.Tests
end

