-- ==== Sys2Proof/Tests/WitnessGens.lean ====
section
/-! SUPPORT. Witnesses for the statements about address generators: small states and operands that meet the hypotheses of each
clause together. -/

namespace Sys2Proof.Tests

/- Each proof is checked before the next one begins, so that the checks do not wait for one another in memory. -/
set_option Elab.async false

open Machine Claims

/-- A generator with an output, an input and its data at 0x400: part 0 of an opcode, with IMM and NEST. -/
def gfr (op imm nest : Nat) : Nat := op * 2 ^ 232 + 2 ^ 217 + 2 ^ 208 + nest * 2 ^ 197 + 0x400 * 2 ^ 121 + imm

/-- A format code in part 0 (R268). -/
def fmtCode (c : Nat) : Nat := c * 2 ^ 227

/-- A nest's part 1: COUNT and STRIDE of levels 0 and 1. -/
def levels (c0 s0 c1 s1 : Nat) : Nat := (c0 * 2 ^ 48 + s0) * 2 ^ 160 + (c1 * 2 ^ 48 + s1) * 2 ^ 80

/-- Generator 0 with its parts, what has reached it, and a translation of the first page. -/
def genOf (f p1 p3 : Nat) (l : List Token) (up : Gen → Gen := id) : State :=
  { genState [(0, up { gen0 0 l with parts := [(0, BitVec.ofNat 256 f), (1, BitVec.ofNat 256 p1), (3, BitVec.ofNat 256 p3)] })] with micro := [(0, [page])] }

/-- What the state is after the generator has delivered what it can. -/
def after (s : State) : State := s.genDeliver g0

/-- R253, R309, R316: every opcode with a token to deliver, a group with two planes to request, and every opcode with a stop and D at its input. -/
theorem witness_GeneratorTokens :
    (∀ p ∈ generators, let s := genOf (gfr p.2 0 0) 0 0 [] fun q => { q with line := [⟨value [7], true, none, none⟩] }
     s.genRuns g0 p.2 = true ∧ (s.gen g0).half.drain = none ∧ s.genFree g0 = true ∧ (s.gen g0).line = ⟨value [7], true, none, none⟩ :: [] ∧
     (s.gen g0).inq.toks = [] ∧ (s.gen g0).on = false) ∧
    (let line : List Item := [⟨value [1], false, none, none⟩, ⟨bareOf 7, false, none, some (0, [(0, 0)])⟩, ⟨bareOf 7, false, none, some (1, [(0, 0)])⟩]
     let s := genOf (gfr 3 0 0 + fmtCode 0x17) 0 0 [] fun q => { q with line := line }
     s.genRuns g0 3 = true ∧ ((after s).gen g0).line = [⟨value [1], false, none, none⟩] ++ ⟨bareOf 7, false, none, some (0, [(0, 0)])⟩ :: line.drop 2 ∧
     works (gplane g0 [(0, 0)] 0 (after s)) = true) ∧
    (∀ op ∈ passers.map (·.2) ++ [0x05, 0x11, 0x12, 0x14], ∀ k ∈ [(1 : Fin 8), 6, 7], let s := genOf (gfr op 0 0) 0 0 [bareOf k]
     GenReady s g0 op ∧ Meets (after s) g0 (bareOf k) ∧ (bareOf k).kind ≠ 0 ∧ ((after s).gen g0).part.first = none ∧ ((after s).gen g0).xfer = []) := by
  simp only [genReady_iff, meets_iff]
  refine ⟨?_, ?_, ?_⟩ <;> decide +kernel

/-- A page of fabric addresses that may not be written. -/
def readOnly : TlbEntry := ⟨0, 0, 16, 0x11⟩

/-- A table for the addresses from 2^39 + 2^31 on: a leaf of level 1 in which loads and stores are allowed. -/
def tables : State := { genOf (gfr 3 0 0) 0 0 [] with micro := [], mem := [(0, 1), (8, 3), (16, 0x1D)] }

/-- R254, R261-R265, R309, R315: the two ends of the range, a translation held that allows the access and one that does not, walks that fault and that find
a leaf, words that can be delivered and not; an index beyond its extent after one within, a row beyond its extent, a load with no translation, an error token at
every opcode. -/
theorem witness_GeneratorAccesses :
    (let s : State := { genOf (gfr 3 0 0) 0 0 [] with micro := [(0, [readOnly])] }
     (s.micro.get [] (s.gen g0).unit).find? (fun t => t.hits (s.graph 0).asid 0xFFFF) = some readOnly ∧ permFabric readOnly.leaf .load = none ∧
     permFabric readOnly.leaf .store = some 0x22 ∧ (2 : Nat) ^ 52 ≤ 2 ^ 52) ∧
    (tables.micro.get [] (tables.gen g0).unit = [] ∧ tables.tcs.get [] (tables.gen g0).slice = [] ∧ tables.walk 0 (2 ^ 52 - 1) = .fault 0x21 ∧
     tables.walk 0 (2 ^ 39 + 2 ^ 31) = .leaf 1 0x1D ∧ permFabric (mkTlb 0 (2 ^ 39 + 2 ^ 31) 1 0x1D).leaf .store = none) ∧
    (let s := genOf (gfr 3 0 0) 0 0 []
     let u := { s with repair := { s.repair with marks := [(0x20, 0xB1)] } }
     gpas g0 0x100 8 .load s = .ok (addrs 0x100 8, s) ∧ s.undeliverables (addrs 0x100 8) = none ∧ isBlock (addrs 0x100 8) = false ∧
     gpas g0 0x100 8 .load u = .ok (addrs 0x100 8, u) ∧ u.undeliverables (addrs 0x100 8) = some 0xB1 ∧
     gpas g0 0x100 8 .store s = .ok (addrs 0x100 8, s)) ∧
    (let t := ints [4, 5]
     let s := genOf (gfr 3 0 0) (levels 5 4 0 0) 0 [t]
     GenReady s g0 3 ∧ Meets (after s) g0 t ∧ t.kind = 0 ∧ t.valid 1 = true ∧ ¬IndexOk ((after s).gen g0) 0 (int t 1) ∧ IndexOk ((after s).gen g0) 0 (int t 0)) ∧
    (∀ op ∈ [5, 6], let t := ints [4, 5]
     let s := genOf (gfr op 0 0) (levels 3 4 5 16) 0 [t]
     GenReady s g0 op ∧ Meets (after s) g0 t ∧ t.kind = 0 ∧ t.valid 1 = true ∧ ((after s).gen g0).rowOk (int t 1) = false ∧ ((after s).gen g0).rowOk (int t 0) = true) ∧
    (let t := ints [4, 5]
     let u := after (genOf (gfr 6 0 0) (levels 3 4 5 16) 0 [t])
     HotChosen u u g0 ∧ Copies u g0 t (fun _ => none) ∧ (u.gen g0).bagRowOk (int t 1) none = false ∧ (u.gen g0).bagRowOk (int t 0) none = true) ∧
    (let t := ints [4]
     let s : State := { genOf (gfr 3 0 0) (levels 5 4 0 0) 0 [t] with micro := [] }
     GenReady s g0 3 ∧ Meets (after s) g0 t ∧ IndexOk ((after s).gen g0) 0 (int t 0) ∧ t.mask = 1 ∧
     (match asks g0 (named ((after s).gen g0) t (fun _ => true) 16) (opened (after s) g0) with
      | .error e => decide (e = .fault 0x27 0x410)
      | .ok _ => false) = true) ∧
    (∀ p ∈ generators, p.2 ≠ 1 → let s := genOf (gfr p.2 0 0) 0 0 [⟨0, true, false, 3, List.replicate 16 0⟩]
     GenReady s g0 p.2 ∧ ((after s).gen g0).inq.toks.head? = some ⟨0, true, false, 3, List.replicate 16 0⟩) := by
  simp only [genReady_iff, meets_iff, IndexOk, HotChosen, Copies, ok_iff]
  refine ⟨?_, ?_, ?_, ?_, ?_, ?_, ?_, ?_⟩ <;> decide +kernel

/-- A token of indices with a wave in lane 15. -/
def waved (i : Int) : Token := { ints [i] with mask := 0x8001, lanes := (ints [i]).lanes.set 15 (BitVec.ofNat 40 0x10009) }

/-- R315, R319: an index token and a pair at each opcode, at the last index of the extent; a plane and the end of a group of an SD format. -/
theorem witness_IndexedAccess :
    (let t := ints [0, 4]
     let s := genOf (gfr 3 0 0) (levels 5 4 0 0) 0 [t]
     GenReady s g0 3 ∧ Meets (after s) g0 t ∧ t.kind = 0 ∧ (∀ i < 16, t.valid i = true → IndexOk ((after s).gen g0) 0 (int t i)) ∧
     works (asks g0 (named ((after s).gen g0) t (fun _ => true) 16) (opened (after s) g0)) = true) ∧
    (∀ op ∈ [0x04, 0x08, 0x09, 0x0A, 0x0B], let t := waved 4
     let s := genOf (gfr op 0 0) (levels 5 4 0 0) 0 [t]
     GenReady s g0 op ∧ Meets (after s) g0 t ∧ t.kind = 0 ∧ ((after s).gen g0).part.first = none ∧ t.valid 15 = true ∧
     ∀ i < 15, t.valid i = true → IndexOk ((after s).gen g0) 0 (int t i)) ∧
    (∀ op ∈ [0x04, 0x09, 0x0A], let idx := ints [0, 4]
     let t := value [7, 8]
     let s := genOf (gfr op 0 0) (levels 5 4 0 0) 0 [t] fun q => { q with part := { GenPart.empty with first := some idx } }
     GenReady s g0 op ∧ Meets (after s) g0 t ∧ t.kind = 0 ∧ ((after s).gen g0).part.first = some idx ∧ ((after s).gen g0).fmt.width = 32 ∧
     (match ((after s).gen g0).fmt with | .sd _ => false | _ => true) = true ∧
     (∀ i < 16, idx.valid i = true → t.valid i = true → IndexOk ((after s).gen g0) 0 (int idx i)) ∧
     works (gstorePair g0 (named ((after s).gen g0) idx t.valid 16) [t] (after s)) = true) ∧
    (∀ op ∈ [0x04, 0x09], ∀ c ∈ [(value [1], []), (bareOf 1, [value [3, 3], value [1, 2], value [1, 2]])], let idx := ints [0, 4]
     let s := genOf (gfr op 0 0 + fmtCode 0x17) (levels 5 1 0 0) 0 [c.1] fun q => { q with part := { GenPart.empty with first := some idx, toks := c.2 } }
     let q := (after s).gen g0
     GenReady s g0 op ∧ Meets (after s) g0 c.1 ∧ q.part.first = some idx ∧ q.fmt = .sd 4 ∧ (c.1.kind = 0 ∨ c.1.kind = 1 ∧ q.part.toks ≠ []) ∧
     (∀ i < 16, idx.valid i = true → (q.part.toks.headD c.1).valid i = true → IndexOk q 0 (int idx i)) ∧
     works (gstorePair g0 (named q idx (q.part.toks.headD c.1).valid 16) q.part.toks (after s)) = true) := by
  simp only [genReady_iff, meets_iff, IndexOk]
  refine ⟨?_, ?_, ?_, ?_⟩ <;> decide +kernel

/-- The elements of a turn of AFFLD or AFFST. -/
def elements (q : Gen) : List (Nat × Int) :=
  (List.range (min 16 ((if gNest q.f = 0 then 1 else q.count 0) - q.loop.getD 0 0))).map fun i => (i, q.offset (q.loop.set 0 (q.loop.getD 0 0 + i)))

/-- R312-R314: AFFLD without a nest, inside a run and at its end, with D still to come, and with TDST; AFFST at a value, in an MX block, in a group of an SD format and at its end, at its stop and at D. -/
theorem witness_AffineAccess :
    (∀ c ∈ [(0, 0, 0), (1, 17, 0), (1, 17, 16), (1, 16, 0)],
     let s := genOf (gfr 1 0 c.1) (levels c.2.1 4 0 0) 0 [] fun q => { q with on := true, loop := [c.2.2, 0, 0, 0, 0, 0] }
     let q := (after s).gen g0
     GenReady s g0 1 ∧ q.on = true ∧ q.xfer = [] ∧ q.line = [] ∧ gTdst q.f = false ∧ gNest q.f = c.1 ∧ q.loop.getD 0 0 = c.2.2 ∧
     (c.1 = 0 ∨ q.count 0 = c.2.1) ∧ works (asks g0 (elements q) (opened (after s) g0)) = true) ∧
    (let s := genOf (gfr 1 0 1) (levels 3 4 0 0) 0 [] fun q => { q with on := true, loop := [3, 0, 0, 0, 0, 0] }
     let q := (after s).gen g0
     GenReady s g0 1 ∧ q.on = true ∧ q.xfer = [] ∧ q.line = [] ∧ gTdst q.f = false ∧ gNest q.f ≠ 0 ∧ q.count (gNest q.f - 1) ≤ q.loop.getD (gNest q.f - 1) 0) ∧
    (let s := genOf (gfr 1 0x400 0) 0 0 [] fun q => { q with on := true }
     let q := (after s).gen g0
     GenReady s g0 1 ∧ q.on = true ∧ q.xfer = [] ∧ q.line = [] ∧ gTdst q.f = true ∧ gNest q.f = 0 ∧ works (gpack g0 [q.offset (q.loop.set 0 0)] (opened (after s) g0)) = true) ∧
    (∀ c ∈ [(0x10, some (value [7]), [], 0), (0x10, none, [value [7]], 0)], let t := value [7, 8, 9]
     let s := genOf (gfr 2 0 1 + fmtCode c.1) (levels 3 1 0 0) 0 [t] fun q => { q with on := true, part := { GenPart.empty with first := c.2.1 }, scq := ⟨c.2.2.1, true, 8⟩ }
     let q := (after s).gen g0
     GenReady s g0 2 ∧ Meets (after s) g0 t ∧ q.on = true ∧ t.kind = 0 ∧ q.fmt.isMx = true ∧ q.part.first = c.2.1 ∧ q.scq.toks = c.2.2.1 ∧ q.loop.getD 0 0 < q.count 0 ∧
     (match gtake g0 (after s) with | .ok ((), w) => works (gstoreMx g0 (elements q) 7 (q.part.n = 0) t w) | _ => false) = true) ∧
    (∀ c ∈ [(value [7, 8, 9], none), (value [7, 8, 9], some (value [3, 3, 3])), (bareOf 1, some (value [3, 3, 3]))], ∀ n ∈ [0, 1],
     let s := genOf (gfr 2 0 1 + fmtCode 0x17) (levels 3 1 0 0) 0 [c.1] fun q =>
       { q with on := true, part := { GenPart.empty with first := c.2, toks := if c.1.kind = 1 then [value [1, 2, 3]] else [], n := n, acc := [3] } }
     let q := (after s).gen g0
     GenReady s g0 2 ∧ Meets (after s) g0 c.1 ∧ q.on = true ∧ q.fmt = .sd 4 ∧ q.part.first = c.2 ∧ (c.1.kind = 0 ∨ c.1.kind = 1 ∧ c.2 = some (value [3, 3, 3])) ∧
     q.loop.getD 0 0 < q.count 0 ∧
     (match gtake g0 (after s) with | .ok ((), w) => works (gstoreSd g0 4 (elements q) (value [3, 3, 3]) q.part.toks 3 w) | _ => false) = true) ∧
    (let s := genOf (gfr 1 0x400 1) (levels 3 4 0 0) 0 [] fun q => { q with on := true }
     let q := (after s).gen g0
     GenReady s g0 1 ∧ q.on = true ∧ q.xfer = [] ∧ q.line = [] ∧ gTdst q.f = true ∧ gNest q.f = 1 ∧
     works (gpack g0 ((List.range 3).map fun i => q.offset (q.loop.set 0 i)) ((opened (after s) g0).updGen g0 fun y => { y with loop := [0, 0, 0, 0, 0, 0], on := false })) = true) ∧
    (∀ n ∈ [0, 1], let t := value [7, 8, 9]
     let s := genOf (gfr 2 0 n) (levels 3 4 0 0) 0 [t] fun q => { q with on := true }
     let q := (after s).gen g0
     GenReady s g0 2 ∧ Meets (after s) g0 t ∧ q.on = true ∧ gNest q.f = n ∧ q.loop.getD 0 0 < (if gNest q.f = 0 then 1 else q.count 0) ∧ t.kind = 0 ∧
     (match q.fmt with | .sd _ => false | _ => true) = true ∧ q.fmt.isMx = false ∧
     (match gtake g0 (after s) with | .ok ((), w) => works (gstorePlain g0 (elements q) t w) | _ => false) = true) ∧
    (let t := bareOf 1
     let s := genOf (gfr 2 0 1) (levels 3 4 0 0) 0 [t] fun q => { q with on := true, loop := [16, 0, 0, 0, 0, 0] }
     let q := (after s).gen g0
     GenReady s g0 2 ∧ Meets (after s) g0 t ∧ q.on = true ∧ q.count 0 ≤ q.loop.getD 0 0 ∧ q.fmt.isMx = false ∧ t.kind = Fin.ofNat 8 ((q.advance q.loop).2 + 1) ∧
     (q.advance q.loop).2 ≤ 5) ∧
    (let s := genOf (gfr 2 0 1) (levels 3 4 0 0) 0 [bareOf 7]
     GenReady s g0 2 ∧ Meets (after s) g0 (bareOf 7) ∧ ((after s).gen g0).on = false ∧ ((after s).gen g0).fmt.isMx = false) := by
  simp only [genReady_iff, meets_iff]
  refine ⟨?_, ?_, ?_, ?_, ?_, ?_, ?_, ?_, ?_⟩ <;> decide +kernel

/-- BAGSUM with a hot-row map in the tile of site 0: its copy 0 holds row 4, at 0x700. -/
def hotState (l : List Token) : State :=
  let f : FrameBits := BitVec.ofNat 256 (2 ^ 216)
  { genOf (gfr 6 0 0) (levels 3 4 5 16) (2 ^ 239) l with
    sites := [(eltKey (at_ 0), { SitePlane.empty with tileFr := some f })],
    tiles := [(siteKey 0 0 0, bytesFrom (stageOff f 0) ([9, 0, 1, 0] ++ List.replicate 12 0 ++ leBytes 8 4 ++ leBytes 8 0x700))] }

/-- R316-R318: rows at a lane to come, with TDST, and past the last lane; a bag of rows, of one row, of a row that the map holds, a token without a valid lane, and a bag's end, empty and not. -/
theorem witness_RowsAndBags :
    (∀ c ∈ [(0, 0, 0), (1, 0, 0), (1, 16, 0), (2, 0, 0), (1, 0, 0x400)], let t := ints [0, 4]
     let s := genOf (gfr 5 c.2.2 0) (levels 17 4 5 68) 0 [t] fun q => { q with part := { GenPart.empty with n := c.1 * 2 ^ 32 + c.2.1 } }
     let q := (after s).gen g0
     GenReady s g0 5 ∧ Meets (after s) g0 t ∧ t.kind = 0 ∧ (∀ i < 16, t.valid i = true → q.rowOk (int t i) = true) ∧ q.part.n = c.1 * 2 ^ 32 + c.2.1 ∧
     c.2.1 < 2 ^ 32 ∧ gTdst q.f = decide (c.2.2 ≠ 0) ∧ q.xfer = [] ∧ (∀ i < 16, t.valid i = true ↔ i < 2) ∧ q.count 0 = 17 ∧
     works (asks g0 ((List.range (min 16 (17 - c.2.1))).map fun k => (k, q.rowOff (int t (min c.1 1)) (c.2.1 + k))) (opened (after s) g0)) = true ∧
     works (gpack g0 ((List.range 17).map (q.rowOff (int t (min c.1 1)))) (opened (after s) g0)) = true) ∧
    (∀ t ∈ [ints [0, 4], ints [4]], let s := genOf (gfr 6 0 0) (levels 3 4 5 16) 0 [t]
     let u := after s
     let q := u.gen g0
     GenReady s g0 6 ∧ Meets u g0 t ∧ t.kind = 0 ∧ HotChosen u u g0 ∧ Copies u g0 t (fun _ => none) ∧ (∀ i < 16, t.valid i = true → q.rowOk (int t i) = true) ∧
     q.hotEn = false ∧ (t.mask = 1 ∨ t.mask = 3) ∧ works (growLanes g0 (int t 0) none (opened u g0)) = true ∧
     works ((((List.range 16).filter t.valid).forM fun i => do
          let r ← growLanes g0 (int t i) none
          gpart g0 fun p => { p with acc := r.zipIdx.map (fun (v : Lane × Nat) => Machine.fadd (p.acc.getD v.2 0) v.1 .rne), n := p.n + 1, seen := true }) (opened u g0)) = true) ∧
    (let t := ints [4]
     let s := hotState [t]
     let u := after s
     let w0 : State := u.updGen g0 fun q => { q with hot := some 0 }
     let cp : Nat → Option Nat := fun _ => some 0x700
     GenReady s g0 6 ∧ Meets u g0 t ∧ t.kind = 0 ∧ (u.gen g0).hot = none ∧ HotChosen u w0 g0 ∧ Copies w0 g0 t cp ∧
     (∀ i < 16, t.valid i = true → (u.gen g0).bagRowOk (int t i) (cp i) = true) ∧ works (growLanes g0 (int t 0) (cp 0) (opened w0 g0)) = true) ∧
    (let s := genOf (gfr 6 0 0) (levels 3 4 5 16) 0 [⟨0, false, false, 0, List.replicate 16 0⟩]
     GenReady s g0 6 ∧ Meets (after s) g0 ⟨0, false, false, 0, List.replicate 16 0⟩) ∧
    (∀ k ∈ [(1 : Fin 8), 7], ∀ n ∈ [0, 2], let s := genOf (gfr 6 1 0) (levels 3 4 5 16) 0 [bareOf k] fun q => { q with part := { GenPart.empty with n := n, seen := n ≠ 0 } }
     GenReady s g0 6 ∧ Meets (after s) g0 (bareOf k) ∧ (bareOf k).kind ≠ 0 ∧ ((after s).gen g0).part.n = n ∧ ghotCopy g0 (after s) = .ok ((), after s)) := by
  simp only [genReady_iff, meets_iff, HotChosen, Copies, ok_iff]
  refine ⟨?_, ?_, ?_, ?_, ?_⟩ <;> decide +kernel

/-- A frame of 2 by 2 pixels, one row or none of it closed. -/
def egState (t : Token) (p : GenPart) : State :=
  genOf (gfr 0x0D 0 0 + 0x0C * 2 ^ 227) 0 (2 * 2 ^ 226 + 2 * 2 ^ 212 + 64 * 2 ^ 160) [t] fun q => { q with part := p }

/-- REQ at the stop of a request while a stamped frame waits for its ring, which is full. -/
def heldReq : State :=
  let s := genOf (gfr 0x0C 0 0) 0 0 [bareOf 1] fun q => { q with part := { GenPart.empty with first := some (value [0x400, 0]) } }
  { s with
    graphs := [(0, { s.graph 0 with pocket := [⟨1, 0, [hostBase], [7], .frame 1 0 1 1⟩] })], mem := [(0x604, 1)],
    dv := { State.reset.dv with locked := true, ranges := [(0, (hostBase, 4096))], ringCtl := 0x600, ringBase := 0x700 } }

/-- R320, R321: the first token of a request and its end, for the engine and for an endpoint, a bare stop, another shape, a frame that waits for its ring, a full endpoint; a frame's header, its rows, their ends, and the end of the
frame. -/
theorem witness_RequestsAndFrames :
    (∀ c ∈ [0, 1], let t := value [0x400, 0]
     let s := genOf (gfr 0x0C (c + 16 * 63) 0) 0 0 [t]
     GenReady s g0 0x0C ∧ Meets (after s) g0 t ∧ ((after s).gen g0).part.first = none ∧ t.kind = 0 ∧ t.valid 0 = true ∧ t.valid 1 = true) ∧
    (∀ c ∈ [0, 1], let s := genOf (gfr 0x0C (c + 16 * 63) 0) 0 0 [bareOf 1] fun q => { q with part := { GenPart.empty with first := some (value [0x400, 0]) } }
     let q := (after s).gen g0
     GenReady s g0 0x0C ∧ Meets (after s) g0 (bareOf 1) ∧ q.part.first = some (value [0x400, 0]) ∧ q.f.toNat % 16 = c ∧ ((after s).core q.core).run ≠ .stopped ∧
     (((after s).core q.core).queue (BitVec.ofNat 6 (q.f.toNat / 16 % 64))).length < 16 ∧ ((released (opened (after s) g0) g0).graph 0).pocket = []) ∧
    (∀ c ∈ [(0x0C, bareOf 1, none), (0x0C, bareOf 2, some (value [0x400, 0])), (0x0D, bareOf 1, none)],
     let s := genOf (gfr c.1 0 0) 0 0 [c.2.1] fun q => { q with part := { GenPart.empty with first := c.2.2 } }
     GenReady s g0 c.1 ∧ Meets (after s) g0 c.2.1 ∧ ((after s).gen g0).part.first = c.2.2 ∧ c.2.1.kind ≠ 0 ∧ c.2.1.kind ≠ 7) ∧
    (let q := (after heldReq).gen g0
     GenReady heldReq g0 0x0C ∧ Meets (after heldReq) g0 (bareOf 1) ∧ q.part.first = some (value [0x400, 0]) ∧ q.f.toNat % 16 = 0 ∧
     ((released (opened (after heldReq) g0) g0).graph 0).pocket ≠ []) ∧
    (let s := genOf (gfr 0x0C (1 + 16 * 63) 0) 0 0 [bareOf 1] fun q => { q with part := { GenPart.empty with first := some (value [0x400, 0]) } }
     let u : State := { s with cores := [(0, { core0 with queues := [(63, List.replicate 16 (.recv, 5))] })] }
     let q := (after u).gen g0
     GenReady u g0 0x0C ∧ Meets (after u) g0 (bareOf 1) ∧ q.part.first = some (value [0x400, 0]) ∧ q.f.toNat % 16 = 1 ∧ ((after u).core q.core).run ≠ .stopped ∧
     16 ≤ (((after u).core q.core).queue (BitVec.ofNat 6 (q.f.toNat / 16 % 64))).length) ∧
    (let t := value [1, 2, 3]
     let s := egState t .empty
     GenReady s g0 0x0D ∧ Meets (after s) g0 t ∧ ((after s).gen g0).part.first = none ∧ t.kind = 0 ∧ t.valid 0 = true ∧ t.valid 1 = true ∧ t.valid 2 = true) ∧
    (let t := value [1, 2]
     let s := egState t { GenPart.empty with first := some (value [1, 2, 3]), toks := [value [1, 2], value [1, 2]], acc := [0, 0] }
     let q := (after s).gen g0
     GenReady s g0 0x0D ∧ Meets (after s) g0 t ∧ q.part.first = some (value [1, 2, 3]) ∧ t.kind = 0 ∧ egWidth q.p3 = 2 ∧ q.part.acc.length < 3 * egHeight q.p3 / 2 ∧
     q.part.toks.length - q.part.acc.length * 1 < 1 ∧ t.mask = BitVec.ofNat 16 (2 ^ min 16 (2 - 16 * 0) - 1)) ∧
    (let s := egState (bareOf 1) { GenPart.empty with first := some (value [1, 2, 3]), toks := [value [1, 2], value [1, 2], value [1, 2]], acc := [0, 0] }
     let q := (after s).gen g0
     GenReady s g0 0x0D ∧ Meets (after s) g0 (bareOf 1) ∧ q.part.first = some (value [1, 2, 3]) ∧ egWidth q.p3 = 2 ∧ q.part.toks.length - q.part.acc.length * 1 = 1 ∧
     q.part.acc.length < 3 * egHeight q.p3 / 2) ∧
    (let s := egState (bareOf 2) { GenPart.empty with first := some (value [1, 2, 3]), toks := [value [1, 2], value [1, 2], value [1, 2]], acc := [0, 0, 0] }
     let q := (after s).gen g0
     GenReady s g0 0x0D ∧ Meets (after s) g0 (bareOf 2) ∧ q.part.first = some (value [1, 2, 3]) ∧ q.part.acc.length = 3 * egHeight q.p3 / 2 ∧
     q.part.toks.length - q.part.acc.length * 1 = 0 ∧
     (match gframeBytes g0 q.part.toks (opened (after s) g0) with
      | .ok (bs, w1) => works (gput g0 (gBase q.f + q.frameNo * egStride q.p3) bs (.frame (1 + 2 ^ 32 * 2) 3 2 (egHeight q.p3)) w1)
      | _ => false) = true) := by
  simp only [genReady_iff, meets_iff]
  refine ⟨?_, ?_, ?_, ?_, ?_, ?_, ?_, ?_, ?_⟩ <;> decide +kernel

/-- 1.0 and 0.0 in binary32. -/
def one32 : List Byte := leBytes 4 0x3F800000
def zero32 : List Byte := leBytes 4 0

/-- A camera that looks along z, 8 by 8, from 0 to 8.0, at store 0. -/
def cam0 : Camera :=
  ((List.range 12).flatMap fun i => if i % 5 = 0 then one32 else zero32) ++ ((List.range 12).flatMap fun i => if i % 4 = 0 then one32 else zero32) ++
  leBytes 2 8 ++ leBytes 2 8 ++ zero32 ++ leBytes 4 0x41000000 ++ List.replicate 20 0

/-- A store of 8 by 8 by 8 cells of size 1.0, with one element each, its table at 0x800. -/
def store0 : StoreD :=
  zero32 ++ zero32 ++ zero32 ++ one32 ++ leBytes 2 8 ++ leBytes 2 8 ++ leBytes 2 8 ++ [0, 0] ++ leBytes 2 1 ++ [0, 0] ++ zero32 ++ leBytes 8 0x800 ++ leBytes 8 0x840 ++
  zero32 ++ zero32 ++ leBytes 8 0xC00 ++ leBytes 8 0x900

/-- A camera generator with a camera register, its graph with the store. -/
def camGen (op imm cls : Nat) (l : List Token) (p : GenPart) (c : Camera := cam0) : State :=
  let q : Gen := { gen0 0 l with parts := [(0, BitVec.ofNat 256 (gfr op imm 0 + cls * 2 ^ 224))], part := p, cam := c }
  { fabricOf { graph0 with gens := [(0, q)], stores := [store0], cams := [(0, c)] } [] with mem := bytesFrom 0x400 cam0, micro := [(0, [page])] }

/-- A coordinate with a first component, 1.0 in lanes 1 to 3, and a wave in lane 15. -/
def coord (d : Lane) : Token := ⟨0, false, false, 0x800F, [d, 0x3FF0000000, 0x3FF0000000, 0x3FF0000000] ++ List.replicate 11 0 ++ [7]⟩

/-- Whether a computation gives tokens that are all values. -/
def allValues (x : Except GErr (List Token × State)) : Bool := match x with
  | .ok (ts, _) => ts.all fun k => decide (k.kind = 0)
  | .error _ => false

/-- R346-R349: CAMLD that saves, loads and finds a bad image; a view of a point in and outside the image, plain and chained; a ray; each token of an update, and updates in and outside the image. -/
theorem witness_CameraGenerators :
    (∀ c ∈ [(0x10, (0 : Int)), (0x30, 0), (0x00, 0), (0x00, 1)], let t := ints [c.2]
     let s := camGen 0x10 c.1 0 [t] .empty
     let q := (after s).gen g0
     GenReady s g0 0x10 ∧ Meets (after s) g0 t ∧ t.kind = 0 ∧ t.valid 0 = true ∧ int t 0 = c.2 ∧ gBase q.f + 128 * c.2.toNat + 128 ≤ 2 ^ 52 ∧ q.f.getLsbD 4 = decide (c.1 ≠ 0) ∧
     (if c.1 ≠ 0 then works (gput g0 0x400 (((after s).graph 0).camera 0) (.save ((after s).graph 0).nextId) (opened (after s) g0))
      else match gread g0 (0x400 + 128 * c.2.toNat) 128 (opened (after s) g0) with
       | .ok (img, _) => decide (camOk ((after s).graph 0).stores.length img = decide (c.2 = 0))
       | _ => false) = true) ∧
    (∀ cls ∈ [0, 2], ∀ n ∈ [0x3FF, 0x407], let t := coord (BitVec.ofNat 40 (n * 2 ^ 28))
     let s := camGen 0x11 0 cls [t] .empty
     let q := (after s).gen g0
     GenReady s g0 0x11 ∧ Meets (after s) g0 t ∧ t.kind = 0 ∧ (∀ i < 3, t.valid i = true ∧ readW40 (t.lane i) ≠ .nan) ∧ camOk ((after s).graph 0).stores.length q.cam = true ∧
     gClass q.f = cls ∧ t.valid 15 = true ∧ q.cam = cam0 ∧ ((after s).graph 0).storeOf cam0 = store0 ∧ q.f.getLsbD 4 = false ∧
     (t.lane 0).toNat = n * 2 ^ 28 ∧ t.lane 1 = 0x3FF0000000 ∧ t.lane 2 = 0x3FF0000000) ∧
    (inView cam0 0x3FF0000000 0x3FF0000000 0x3FF0000000 = true ∧ inView cam0 0x4070000000 0x3FF0000000 0x3FF0000000 = false ∧
     allValues (gcamgView g0 cam0 store0 false 0x3FF0000000 0x3FF0000000 0x3FF0000000 (opened (after (camGen 0x11 0 0 [coord 0x3FF0000000] .empty)) g0)) = true ∧
     allValues (gcamgView g0 cam0 store0 false 0x4070000000 0x3FF0000000 0x3FF0000000 (opened (after (camGen 0x11 0 0 [coord 0x4070000000] .empty)) g0)) = true) ∧
    (let t := coord 0
     let s := camGen 0x12 0 0 [t] .empty
     let q := (after s).gen g0
     GenReady s g0 0x12 ∧ Meets (after s) g0 t ∧ t.kind = 0 ∧ (∀ i < 2, t.valid i = true ∧ readW40 (t.lane i) ≠ .nan) ∧ camOk ((after s).graph 0).stores.length q.cam = true ∧
     allValues (gcamrView g0 q.cam (((after s).graph 0).storeOf q.cam) (t.lane 0) (t.lane 1) (opened (after s) g0)) = true) ∧
    (∀ cls ∈ [0, 2], let t := coord 0x3FF0000000
     let s := camGen 0x13 0 cls [t] .empty
     let u := camGen 0x13 0 cls [value [5]] { GenPart.empty with first := some t }
     GenReady s g0 0x13 ∧ Meets (after s) g0 t ∧ camOk ((after s).graph 0).stores.length ((after s).gen g0).cam = true ∧ ((after s).gen g0).part.first = none ∧ t.kind = 0 ∧
     (∀ i < 4, t.valid i = true ∧ readW40 (t.lane i) ≠ .nan) ∧ t.valid 15 = true ∧
     GenReady u g0 0x13 ∧ Meets (after u) g0 (value [5]) ∧ ((after u).gen g0).part.first = some t ∧ camOk ((after u).graph 0).stores.length ((after u).gen g0).cam = true ∧
     ((after u).gen g0).part.toks.length < (StoreD.plen store0 + 15) / 16 ∧ (((after u).graph 0).storeOf ((after u).gen g0).cam) = store0) ∧
    (∀ n ∈ [0x3FF, 0x407], let t := coord (BitVec.ofNat 40 (n * 2 ^ 28))
     let s := camGen 0x13 0 0 [bareOf 1] { GenPart.empty with first := some t, toks := [value [5]] }
     let q := (after s).gen g0
     GenReady s g0 0x13 ∧ Meets (after s) g0 (bareOf 1) ∧ camOk ((after s).graph 0).stores.length q.cam = true ∧ q.part.first = some t ∧ gClass q.f ≠ 2 ∧
     ((((after s).graph 0).storeOf q.cam).plen + 15) / 16 ≤ q.part.toks.length ∧ q.cam = cam0 ∧ (t.lane 0).toNat = n * 2 ^ 28 ∧
     works (gcamIssue g0 t q.part.toks (after s)) = true) := by
  simp only [genReady_iff, meets_iff]
  refine ⟨?_, ?_, ?_, ?_, ?_, ?_⟩ <;> decide +kernel

/-- A node of a topology table. -/
def node (token p0 p1 n : Nat) : Nat := token + p0 * 2 ^ 32 + p1 * 2 ^ 40 + n * 2 ^ 48

/-- A root, two nodes after it, and pairs of nodes that each have the pair before them as parents: 2^n paths for 2 n + 1 nodes. -/
def doubling (n : Nat) : List Nat :=
  [node 1 0 0 0, node 2 0 0 1, node 3 0 0 1] ++ (List.range (n - 1)).flatMap fun i => [node 4 (2 * i + 1) (2 * i + 2) 2, node 5 (2 * i + 1) (2 * i + 2) 2]

/-- PLEAT with a table at 0x400: a header and nodes. -/
def pleatOf (h : Nat) (ns : List Nat) : State :=
  { genOf (gfr 0x14 0 0) 0 0 [value [0x400, 0, 3]] with mem := bytesFrom 0x400 (leBytes 8 h ++ ns.flatMap (leBytes 8)) }

/-- RINGPUT with 8 slots at 0x400, each in a state at position 4, its ring at 0x600 with control words at 0x640. -/
def ringOf (st : Byte) (t : Token) (p : GenPart) : State :=
  let slot := leBytes 8 0x600 ++ leBytes 8 0x640 ++ [3, st, 0, 0] ++ leBytes 4 4 ++ leBytes 4 9 ++ List.replicate 36 0
  { genOf (gfr 0x15 8 0) 0 0 [t] fun q => { q with part := p } with mem := bytesFrom 0x400 ((List.range 8).flatMap fun _ => slot) }

/-- An item of a row: the draft and the target agree, at position 5. -/
def item5 : Token := value [7, 7, 5]

/-- R383-R392: headers outside 1 to 64, a bad node, more than 128 paths and exactly 128; the first and the last slot, stops and D without a slot, an item, the end of the fibre
with a ring, and a slot that is free. -/
theorem witness_PleatsAndRings :
    (∀ c ∈ [(0, [], 0), (65, [], 0), (128, [], 0), (1, [node 1 0 0 1], 1), (17, doubling 8, 1), (15, doubling 7, 2)], let t := value [0x400, 0, 3]
     let s := pleatOf c.1 c.2.1
     GenReady s g0 0x14 ∧ Meets (after s) g0 t ∧ t.kind = 0 ∧ t.valid 0 = true ∧ t.valid 1 = true ∧ t.valid 2 = true ∧
     ((t.lane 0).setWidth 32).toNat + 2 ^ 32 * ((t.lane 1).setWidth 20).toNat = 0x400 ∧
     (match gnat g0 0x400 8 (after s) with
      | .ok (h, w1) => decide (h = c.1) && (match (List.range h).mapM (fun i => gnat g0 (0x408 + 8 * i) 8) w1, decide (c.2.2 = 0) with
        | .ok (vs, _), false => match latticeRows vs with
          | .inr _ => decide (c.2.2 = 1)
          | .inl (_, rows) => decide (c.2.2 = 2 ∧ rows.length = 128)
        | _, b => b)
      | _ => false) = true) ∧
    (∀ n ∈ [(0 : Int), 7], let t := ints [n]
     let s := ringOf 1 t .empty
     GenReady s g0 0x15 ∧ Meets (after s) g0 t ∧ ((after s).gen g0).part.first = none ∧ t.kind = 0 ∧ t.valid 0 = true ∧ int t 0 = n ∧ n < (((after s).gen g0).f.toNat % 8192 : Nat) ∧
     gBase ((after s).gen g0).f + 64 * n.toNat + 64 ≤ 2 ^ 52) ∧
    (∀ k ∈ [(3 : Fin 8), 6, 7], let s := ringOf 1 (bareOf k) .empty
     GenReady s g0 0x15 ∧ Meets (after s) g0 (bareOf k) ∧ ((after s).gen g0).part.first = none ∧ gOen ((after s).gen g0).f = true ∧ 3 ≤ (bareOf k).kind.val) ∧
    (∀ t ∈ [item5, bareOf 1], let s := ringOf 1 t { GenPart.empty with first := some (ints [2]) }
     GenReady s g0 0x15 ∧ Meets (after s) g0 t ∧ ((after s).gen g0).part.first = some (ints [2]) ∧ t.kind.val ≤ 1) ∧
    (∀ k ∈ [(2 : Fin 8), 3, 7], ∀ st ∈ [0, 1, 2], let s := ringOf (BitVec.ofNat 8 st) (bareOf k) { GenPart.empty with first := some (ints [2]), toks := [item5, bareOf 1] }
     let q := (after s).gen g0
     GenReady s g0 0x15 ∧ Meets (after s) g0 (bareOf k) ∧ q.part.first = some (ints [2]) ∧ 2 ≤ (bareOf k).kind.val ∧
     works (gcommit g0 (ints [2]) q.part.toks (opened (after s) g0)) = true ∧
     (match gunder (fun s => s.withOwn g0) (gread g0 (gBase q.f + 64 * (int (ints [2]) 0).toNat) 64) (opened (after s) g0) with
      | .ok (bs, _) => (slotEntry bs).any fun e => itemsOk e.pos (rowsOf q.part.toks []) && decide (e.st = st ∧ e.ctl = 0x640)
      | _ => false) = true ∧
     works (gnat g0 0x640 4 (opened (after s) g0)) = true ∧ works (gunder (fun s => s.withOwn g0) (gnat g0 0x644 4) (opened (after s) g0)) = true) := by
  simp only [genReady_iff, meets_iff]
  refine ⟨?_, ?_, ?_, ?_, ?_⟩ <;> decide +kernel

end Sys2Proof.Tests
end

