-- ==== Sys2Proof/Tests/WitnessGraphs.lean ====
section
/-! SUPPORT. Witnesses for the statements about the fabric commands: small states and operands that meet the hypotheses of each
clause together. -/

namespace Sys2Proof.Tests

/- Each proof is checked before the next one begins, so that the checks do not wait for one another in memory. -/
set_option Elab.async false

open Machine Claims

/-- The module with registers and a graph in slot 5, of generation 3: its handle is 0x3005. -/
def graphAt (x : Graph) (l : List (Nat × Word)) : State := { regs l with graphs := [(5, { x with live := true, gen := 3 })] }

/-- A queue table at address 0 whose queue 0 has 16 slots at 0xFC0 and these bytes besides. -/
def queueState (l : List (Nat × Byte)) : State :=
  { regs [(1, 0xFFBF)] with mem := [(0, 0xC0), (1, 0xF), (8, 4)] ++ l }

/-- R237, R241-R244: a graph that runs, is idle and has ended, pages armed that are its own and not; GWAIT for either end, done and not, while the graph is cut, and once it has ended in a queue; a
queue closed, full, and with a free slot. -/
theorem witness_SignalsAndQueues :
    (let r := [(1, 0x3005), (2, 1), (3, 3), (4, 0x8000000000003005)]
     let s := graphAt { Graph.free with st := .run, pages := [(0, 0, 0)] } r
     s.byHandle (s.reg 1) = some 5 ∧ s.byHandle (kept (s.reg 1) 0 48) = some 5 ∧ (s.graph 5).st ≠ .idle ∧ (s.graph 5).st ≠ .ended ∧
     (∀ p < 64, (s.reg 2).getLsbD p = true → ∃ r ∈ (s.graph 5).pages, r.1 = p) ∧ CanTrap s ∧
     (∃ p < 64, (s.reg 3).getLsbD p = true ∧ ∀ r ∈ (s.graph 5).pages, r.1 ≠ p) ∧ ((graphAt Graph.free r).graph 5).st = .idle ∧
     (graphAt Graph.free r).byHandle (kept (s.reg 1) 0 48) = some 5) ∧
    (let r := [(1, 0x3005), (2, 0x4000000000003005)]
     let s := graphAt { Graph.free with st := .ended, ended := some 0, loaded := some 0x8084000000000000 } r
     let u := graphAt { Graph.free with st := .run, loads := [⟨0, 0, 0, .graph, [], 1, []⟩] } r
     s.byHandle (kept (s.reg 1) 0 16) = some 5 ∧ (s.reg 1).getLsbD 63 = false ∧ (s.reg 1).toNat / 2 ^ 16 % 2 ^ 46 = 0 ∧
     s.byHandle (kept (s.reg 2) 0 16) = some 5 ∧ (s.reg 2).getLsbD 63 = false ∧ (s.reg 2).toNat / 2 ^ 16 % 2 ^ 46 = 0 ∧
     (s.reg 1).getLsbD 62 = false ∧ (s.graph 5).st = .ended ∧ (s.graph 5).ended = some 0 ∧ (s.reg 2).getLsbD 62 = true ∧
     (s.graph 5).loads = [] ∧ (s.graph 5).loaded = some 0x8084000000000000 ∧ u.byHandle 0x3005 = some 5 ∧ (u.graph 5).st ≠ .ended ∧
     (u.graph 5).loads ≠ [] ∧ (s.graph 5).ctx = .running ∧ (u.graph 5).ctx = .running) ∧
    (∀ c ∈ [CutState.cut, .restoring], let s := graphAt { Graph.free with ctx := c } [(1, 0x3005)]
     s.byHandle (kept (s.reg 1) 0 16) = some 5 ∧ (s.graph 5).ctx = c) ∧
    (let s := graphAt { Graph.free with st := .ended, ended := some 0, queue := some 2 } [(1, 0x3005)]
     (s.reg 1).getLsbD 62 = false ∧ (5 : GraphIx).val = (s.reg 1).toNat % 4096 ∧ (s.reg 1).toNat / 4096 % 16 = (s.graph 5).gen % 16 ∧ (s.graph 5).live = true ∧
     (s.graph 5).queue.isSome = true ∧ (s.graph 5).st = .ended ∧ (s.graph 5).ended = some 0) ∧
    (let s := queueState [(10, 1)]
     (BitVec.ofNat 64 ((s.reg 1).toNat / 64 * 64)).toNat + 64 ≤ 2 ^ 52 ∧ s.queueOwn 0 = false) ∧
    (let s := queueState [(10, 3), (64, 16)]
     s.queueThere 0 = true ∧ s.queueEn 0 = true ∧ s.queueOwn 0 = true ∧ (s.queueTail 0 + 2 ^ 32 - s.queueHead 0) % 2 ^ 32 = 2 ^ s.queueLog 0) ∧
    (let s := queueState [(10, 3), (64, 15)]
     let there := addrs (s.queueBase 0 + 64 * (s.queueTail 0 % 2 ^ s.queueLog 0)) 64 ++ addrs (s.queueAt 0 + 64) 4
     s.queueThere 0 = true ∧ s.queueEn 0 = true ∧ s.queueOwn 0 = true ∧ (s.queueTail 0 + 2 ^ 32 - s.queueHead 0) % 2 ^ 32 ≠ 2 ^ s.queueLog 0 ∧
     ReadsTo s 0xFF80 64 (s.bytesAt (addrs 0xFF80 64)) s ∧ (there.map s.key).Nodup ∧ (∀ p ∈ there, window p ≠ .none ∧ p < blockBase) ∧
     s.storeRefused there = none ∧ s.unstorable there = none) :=
  ⟨⟨by decide +kernel, by decide +kernel, by decide +kernel, by decide +kernel, by decide +kernel, ⟨by decide +kernel, by decide +kernel⟩, by decide +kernel⟩,
   by decide +kernel, by decide +kernel, by decide +kernel, by decide +kernel, by decide +kernel,
   by decide +kernel, by decide +kernel, by decide +kernel, by decide +kernel, ⟨addrs 0xFF80 64, by decide +kernel⟩, by decide +kernel⟩

/-- R219, R237: a slot that is not live, a generation that differs, reserved bits, and an image base at both ends of the range. -/
theorem witness_Handles :
    let s := graphAt Graph.free [(1, 0x2005), (2, 0x3005), (3, 0x13005), (4, 0x8000000000003005), (5, 0xFFFFFFFFFFFFF), (6, 0x10000000000000), (7, 0x1000000003005)]
    CanTrap s ∧ s.byHandle (s.reg 1) = none ∧ s.byHandle (s.reg 3) = none ∧ s.byHandle (kept (s.reg 1) 0 48) = none ∧
    s.byHandle (kept (s.reg 1) 0 16) = none ∧ (s.reg 4).getLsbD 63 = true ∧ (s.reg 3).toNat / 2 ^ 16 % 2 ^ 46 ≠ 0 ∧
    (s.reg 5).toNat + 1 ≤ 2 ^ 52 ∧ s.reg 1 ≠ 0 ∧ 2 ^ 52 < (s.reg 6).toNat + 1 ∧ s.byHandle (s.reg 2) = some 5 ∧
    s.byHandle (s.reg 7) = none ∧ s.byHandle (kept (s.reg 7) 0 48) = some 5 ∧ Stale s (s.reg 1).toNat :=
  ⟨⟨by decide +kernel, by decide +kernel⟩, by decide +kernel, by decide +kernel, by decide +kernel, by decide +kernel, by decide +kernel, by decide +kernel,
   by decide +kernel, by decide +kernel, by decide +kernel, by decide +kernel, by decide +kernel, by decide +kernel, fun g h _ => by
    have : g = 5 := Fin.ext h
    subst this; decide +kernel⟩

/-- A graph with page 7 on region 0 of core 0, whose plane 0 is in a state. -/
def planeState (x : Graph) (p : Plane) : State :=
  { graphAt { x with pages := [(7, 0, 0)] } [(1, 0x3005), (2, 0x100)] with
    regions := if p = .none then [] else [(0, { Region.reset with planes := [(0, p)] })]
    mem := [(0x105, 8), (0x238, 7)] }

/-- R240: a graph whose start plane is loaded; one that is cut, one that runs, and start planes in the other states. -/
theorem witness_GraphLaunch :
    (∀ st ∈ [GraphState.idle, .ended], ∀ pl ∈ [PlaneState.shadow, .active],
     let s := planeState { Graph.free with st := st } ⟨pl, some 5, 7, 0, 0⟩
     s.byHandle (s.reg 1) = some 5 ∧ (s.graph 5).ctx = .running ∧ ((s.graph 5).st = .idle ∨ (s.graph 5).st = .ended) ∧ (s.graph 5).pages ≠ [] ∧
     ((s.graph 5).pages.map (·.2)).Nodup ∧
     ∀ p ∈ (s.graph 5).pages, ∃ i : Fin 4, (s.graph 5).startOf p.1 = i.val ∧ ((s.region p.2.1 p.2.2).plane i.val).owner = some 5 ∧
      (((s.region p.2.1 p.2.2).plane i.val).st = .shadow ∨ ((s.region p.2.1 p.2.2).plane i.val).st = .active)) ∧
    (∀ c ∈ [CutState.cut, .restoring],
     let s := planeState { Graph.free with ctx := c } .none
     s.byHandle (s.reg 1) = some 5 ∧ ((s.graph 5).ctx = .cut ∨ (s.graph 5).ctx = .restoring)) ∧
    (let s := planeState { Graph.free with st := .held } .none
     (s.graph 5).ctx ≠ .cut ∧ (s.graph 5).ctx ≠ .restoring ∧ (s.graph 5).st ≠ .idle ∧ (s.graph 5).st ≠ .ended) ∧
    (∀ p ∈ [(⟨.loading, some 5, 7, 0, 0⟩ : Plane), ⟨.incomplete, some 5, 7, 0, 0⟩, .none],
     let s := planeState Graph.free p
     s.byHandle (s.reg 1) = some 5 ∧ (s.graph 5).st = .idle ∧ (s.graph 5).pages = [] ++ (7, 0, 0) :: [] ∧
     ((s.region 0 0).plane ((s.graph 5).startOf 7)).st = p.st ∧ ((s.region 0 0).plane ((s.graph 5).startOf 7)).owner = p.owner) ∧
    (let s := graphAt Graph.free [(1, 0x3005)]
     s.byHandle (s.reg 1) = some 5 ∧ (s.graph 5).st = .idle ∧ (s.graph 5).ctx = .running ∧ (s.graph 5).pages = []) := by
  decide +kernel

/-- Another graph's plane 1 beside the graph's own. -/
def beside (st : GraphState) : State :=
  let s := planeState Graph.free ⟨.shadow, some 5, 7, 0, 0⟩
  { s with
    graphs := s.graphs ++ [(6, { Graph.free with live := true, st := st })]
    regions := [(0, { Region.reset with planes := [(0, ⟨.shadow, some 5, 7, 0, 0⟩), (1, ⟨.active, some 6, 7, 0, 0⟩)] })] }

/-- R86, R230, R240: a graph that nothing keeps from its region, beside a graph that has ended, and one that a running graph keeps from it. -/
theorem witness_GraphLaunch_kept : Unkept (beside .ended) 5 ∧ ¬Unkept (beside .run) 5 := by
  refine ⟨fun p hp i hi h ho hn => ?_, fun u => ?_⟩
  · have e : p = (7, 0, 0) := by simpa using (show p ∈ [(7, 0, 0)] from hp)
    subst e
    have o : ∀ i < 4, (((beside .ended).region 0 0).plane i).owner = some 5 ∨ (((beside .ended).region 0 0).plane i).owner = some 6 ∨
        (((beside .ended).region 0 0).plane i).owner = none := by decide +kernel
    have g : ((beside .ended).graph 6).st = .ended ∧ ((beside .ended).graph 6).ctx = .running := by decide +kernel
    rcases o i hi with k | k | k <;> rw [k] at ho
    · exact absurd (Option.some.inj ho).symm hn
    · obtain rfl := Option.some.inj ho
      exact .inl ⟨fun _ => .inr g.1, by rw [g.2]; decide⟩
    · nomatch ho
  · rcases u (7, 0, 0) (by decide +kernel) 1 (by omega) 6 (by decide +kernel) (by decide) with h | h
    · revert h; decide +kernel
    · exact absurd h.1 (by decide +kernel)

/-- An image header at 0x100 with a page count, to be loaded by core 0. -/
def imageState (n : Byte) : State := { regs [(1, 0x100)] with mem := [(0x105, n)] }

/-- All graphs of die 0. -/
def allLive : SMap Graph := (List.range 1024).map fun i => (i, { Graph.free with live := true })

/-- No slot is free where every graph of the die is live. -/
theorem freeSlot_full (s : State) (h : ∀ i < 1024, (s.graph (Fin.ofNat 4096 i)).live = true) : s.freeSlot 0 = none := by
  unfold State.freeSlot
  have f : ∀ l : List Nat, (∀ i ∈ l, i < 1024) → l.foldl (fun (b : Option GraphIx) i =>
      let g : GraphIx := Fin.ofNat 4096 (0 * 1024 + i)
      let x := s.graph g
      if x.live then b
      else match b with
        | none => some g
        | some h => if x.freed < (s.graph h).freed then some g else b) none = none := by
    intro l
    induction l with
    | nil => intro; rfl
    | cons a r ih =>
      intro b
      have e := h a (b a (by simp))
      simp only [List.foldl_cons, Nat.zero_mul, Nat.zero_add, e, if_true] at ih ⊢
      exact ih fun i m => b i (by simp [m])
  exact f _ fun i m => List.mem_range.mp m

/-- The graphs of the list are live. -/
theorem get_allLive (n i : Nat) (h : i < n) : ∀ m : SMap Graph, SMap.get .free ((List.range n).map (fun i => (i, { Graph.free with live := true })) ++ m) i =
    { Graph.free with live := true } := by
  induction n with
  | zero => omega
  | succ n ih =>
    intro m
    rw [List.range_succ, List.map_append, List.append_assoc]
    by_cases e : i < n
    · exact ih e _
    · have : i = n := by omega
      subst this
      have g : ∀ l : List Nat, i ∉ l → ∀ m, SMap.get Graph.free (l.map (fun i => (i, { Graph.free with live := true })) ++ (i, { Graph.free with live := true }) :: m) i =
          { Graph.free with live := true } := by
        intro l
        induction l with
        | nil => intro _ m; simp [SMap.get]
        | cons a r ih =>
          intro k m
          have : a ≠ i := fun e => k (by simp [e])
          simp only [List.map_cons, List.cons_append, SMap.get, this, if_false]
          exact ih (fun e => k (by simp [e])) m
      exact g _ (by simp) m

/-- R238: images of 1 and of 64 pages that find a place, a placement that binds, images of no page and of 65; one that finds no slot. -/
theorem witness_ImageLoad :
    (∀ n ∈ [(1 : Byte), 64],
     let s := imageState n
     (s.reg 1).toNat + 1 ≤ 2 ^ 52 ∧ s.reg 0 = 0 ∧ 1 ≤ n.toNat ∧ n.toNat ≤ 64 ∧
     s.span (s.reg 1 + 5) 1 .load = .ok (addrs 0x105 1) s ∧ s.undeliverables (addrs 0x105 1) = none ∧ isBlock (addrs 0x105 1) = false ∧
     [n] = s.bytesAt (addrs 0x105 1) ∧
     s.span (s.reg 1 + 256) (8 * n.toNat) .load = .ok (addrs 0x200 (8 * n.toNat)) s ∧ s.undeliverables (addrs 0x200 (8 * n.toNat)) = none ∧
     isBlock (addrs 0x200 (8 * n.toNat)) = false ∧ s.freeSlot (s.cur.val / 64) = some 0 ∧
     candidates (fun r => (s.freePlane (some (3 : BitVec 2).toNat) r).isSome) n.toNat [s.cur] [s.cur.val / 64] ≠ []) ∧
    (let s := imageState 1
     let l := (candidates (fun r => (s.freePlane (some (3 : BitVec 2).toNat) r).isSome) 1 [s.cur] [s.cur.val / 64]).headD []
     Binds s 0x100 3 (⟨3, 0x100, s.me.asid, .graph, s.bytesAt (addrs 0x200 8), 1, []⟩ : Load).pages l) ∧
    (∀ n ∈ [(0 : Byte), 65], let s := imageState n
     s.reg 0 = 0 ∧ s.span (s.reg 1 + 5) 1 .load = .ok (addrs 0x105 1) s ∧ [n] = s.bytesAt (addrs 0x105 1) ∧ (n.toNat = 0 ∨ 64 < n.toNat) ∧
     s.freeSlot (s.cur.val / 64) = some 0) ∧
    (let s := { imageState 1 with graphs := allLive }
     s.reg 1 = 0x100 ∧ s.freeSlot (s.cur.val / 64) = none) := by
  refine ⟨by decide +kernel, by unfold Binds; decide +kernel, by decide +kernel, by decide +kernel, ?_⟩
  refine freeSlot_full _ fun i h => ?_
  have e := get_allLive 1024 i h []
  have v : (Fin.ofNat 4096 i).val = i := by simp; omega
  simp only [State.graph, allLive, v]
  rw [List.append_nil] at e
  rw [e]

/-- The pages of the image that the graph has a place for. -/
theorem places0 :
    let s := planeState Graph.free .none
    ∀ page ∈ (⟨0, 0x100, 0, .pages, s.bytesAt (addrs 0x200 64), 8, []⟩ : Load).pages, ∀ q ∈ (s.graph 5).place page, q = (0, 0) := by
  intro s page h q hq
  have all : ∀ page ∈ (⟨0, 0x100, 0, .pages, s.bytesAt (addrs 0x200 64), 8, []⟩ : Load).pages,
      ((s.graph 5).place page).all (fun q => decide (q = (0, 0))) = true := by decide +kernel
  have one := all page h
  rw [Option.mem_def.mp hq] at one
  simpa using one

/-- R238, R239: an image with page 7 for plane 0, which is EMPTY, SHADOW or INCOMPLETE, ACTIVE, LOADING, or another graph's; CFGDROP in the
same states; a graph that is cut. -/
theorem witness_PlaneLoads :
    (let s := planeState Graph.free .none
     (s.reg 2).toNat + 1 ≤ 2 ^ 52 ∧ s.reg 1 ≠ 0 ∧ s.byHandle (s.reg 1) = some 5 ∧ (s.graph 5).ctx = .running ∧
     ReadsTo s (s.reg 2 + 5) 1 [8] s ∧ ReadsTo s (s.reg 2 + 256) (8 * (8 : Byte).toNat) (s.bytesAt (addrs 0x200 64)) s ∧
     7 ∈ (⟨0, 0x100, 0, .pages, s.bytesAt (addrs 0x200 64), 8, []⟩ : Load).pages ∧ (s.graph 5).place 7 = some (0, 0) ∧
     (∀ page ∈ (⟨0, 0x100, 0, .pages, s.bytesAt (addrs 0x200 64), 8, []⟩ : Load).pages, ∀ q ∈ (s.graph 5).place page, q = (0, 0)) ∧
     PlaneIs s 0 0 0 .empty none ∧ CanTrap s) ∧
    (∀ p ∈ [(⟨.shadow, some 5, 7, 0, 0⟩ : Plane), ⟨.incomplete, some 5, 7, 0, 0⟩],
     let s := planeState Graph.free p
     ((s.region 0 0).plane 0).st = p.st ∧ ((s.region 0 0).plane 0).owner = some 5 ∧ (∃ q ∈ (s.graph 5).spots, q.2 = (0, 0))) ∧
    (∀ p ∈ [(⟨.active, some 5, 7, 0, 0⟩ : Plane), ⟨.loading, some 5, 7, 0, 0⟩, ⟨.shadow, some 6, 7, 0, 0⟩],
     let s := planeState Graph.free p
     ((((s.region 0 0).plane 0).st = .active ∨ ((s.region 0 0).plane 0).st = .loading) ∨
       (((s.region 0 0).plane 0).owner.isSome = true ∧ ((s.region 0 0).plane 0).owner ≠ some 5)) ∧ (∃ q ∈ (s.graph 5).spots, q.2 = (0, 0))) ∧
    (∀ c ∈ [CutState.cut, .restoring], let s := planeState { Graph.free with ctx := c } .none
     s.byHandle (s.reg 1) = some 5 ∧ (s.graph 5).ctx = c ∧ s.me.legal = true ∧ s.me.status.getLsbD 4 = false) :=
  ⟨⟨by decide +kernel, by decide +kernel, by decide +kernel, by decide +kernel, ⟨addrs 0x105 1, by decide +kernel, by decide +kernel, by decide +kernel, by decide +kernel⟩,
    ⟨addrs 0x200 64, by decide +kernel, by decide +kernel, by decide +kernel, rfl⟩, by decide +kernel, by decide +kernel, places0, ⟨by decide +kernel, by decide +kernel⟩,
    ⟨by decide +kernel, by decide +kernel⟩⟩, by decide +kernel, by decide +kernel, by decide +kernel⟩

/-- A held graph with a cause. -/
def heldState (h : Held) : State := graphAt { Graph.free with st := .held, held := some h, pages := [(0, 0, 0)] } [(1, 0x3005), (2, 0x13005), (3, 0x23005), (4, 0x33005), (5, 0x43005), (6, 5)]

/-- One stray token, in port A of site 15: another plane has been chosen for the region. -/
def strayState : State :=
  let k : Token := ⟨1, false, false, 0, []⟩
  { heldState ⟨0x66, 0, false, 0, 15 + 2 ^ 20⟩ with
    regions := [(0, { Region.reset with planes := [(0, ⟨.active, some 5, 0, 0, 0⟩), (1, ⟨.shadow, some 5, 0, 0, 0⟩)], choice := some 1 })]
    sites := [(eltKey ⟨0, 0, 15, 0⟩, { SitePlane.empty with ports := [(0, { Stage.empty with toks := [k] })] })] }

/-- R116, R416: graphs held after each group of causes, one that is not held, a graph with a stray token, and a CRW of each action. -/
theorem witness_HeldGraphs :
    (∀ c ∈ [(0x80 : Byte), 0x81, 0x25, 0x30, 0xFF],
     let h : Held := ⟨c, 0x123, c = 0xFF, 0, 0⟩
     let s := heldState h
     (s.graph 5).st = .held ∧ (s.graph 5).held = some h ∧ (∀ b ∈ (s.graph 5).blocks, b.2.bad = false) ∧ h.cause ≠ 0x66) ∧
    ((graphAt Graph.free []).graph 5).st ≠ .held ∧
    (let s := strayState
     (s.graph 5).st = .held ∧ (s.graph 5).held = some ⟨0x66, 0, false, 0, 15 + 2 ^ 20⟩ ∧
     (s.strays 5).map (·.code) = [15 + 2 ^ 20]) ∧
    (let s := { strayState with sites := [] }
     ∀ t ∈ s.strays 5, t.code ≠ 15 + 2 ^ 20) ∧
    (let x := (heldState ⟨0x25, 0x123, false, 0, 0⟩).graph 5
     ∃ b ∈ ({ x with blocks := [(2, ⟨0, 1, true⟩)] } : Graph).blocks, b.2.bad = true) ∧
    (let s := strayState
     s.me.status.getLsbD 2 = true ∧ s.byHandle (kept (s.reg 6) 0 16) = none ∧ CanTrap s ∧
     (∀ a ∈ [(1 : Reg), 2, 3, 4], s.byHandle (kept (s.reg a) 0 16) = some 5 ∧ (s.reg a).toNat / 2 ^ 16 % 16 = a.val - 1 ∧
       (s.gctl 5 ((s.reg a).toNat / 2 ^ 16 % 16)).isSome = true) ∧
     4 ≤ (s.reg 5).toNat / 2 ^ 16 % 16) :=
  ⟨by decide +kernel, by decide +kernel, by decide +kernel, by decide +kernel, by decide +kernel, by decide +kernel, by decide +kernel,
   ⟨by decide +kernel, by decide +kernel⟩, by decide +kernel, by decide +kernel⟩

end Sys2Proof.Tests
end

