-- ==== Sys2Proof/Tests/WitnessInstants.lean ====
section
/-! SUPPORT. Witnesses for the statements about instants, queues, loads, contexts, clones and blocks: small states that meet the
hypotheses of each clause together. -/

namespace Sys2Proof.Tests

/- Each proof is checked before the next one begins, so that the checks do not wait for one another in memory. -/
set_option Elab.async false

open Machine Claims

/-- A record of an opcode. -/
def recordOf (op lo : Nat) : RecordBits := BitVec.ofNat 128 (op * 2 ^ 124 + lo)

/-- A quiet graph with a tree, on region 0 of core 0. -/
def treeOf (t : List RecordBits) (latch : BitVec 64) : State :=
  fabricOf { graph0 with tree := t, walk := enter t 18 [] (.sub 0), latch := latch, clean := 2, bare := 2 } []

/-- SEQ with one EMIT of signal 2 and a DSET of register 3. -/
def tree0 : List RecordBits := [recordOf 0 0, recordOf 5 2, recordOf 8 (3 * 2 ^ 45 + 7), recordOf 11 0]

/-- R105-R121: a graph with a latch set, and with an EMIT and a DSET that act. -/
theorem witness_InstantCoherent :
    let s := treeOf tree0 0x8000000000000001
    ((s.graph 0).currentItems.map (·.i)).Nodup ∧ s.resolve 0 = .ok 0x8000000000000005 := by
  decide +kernel

/-- R113-R124: an instant that resolves, and one of two signals that wait for each other. -/
theorem witness_InstantResolution :
    (let s := treeOf tree0 1
     (s.graph 0).mayResolve = true ∧ s.resolve 0 = .ok 5 ∧ acting (s.graph 0) 5 9 = [] ∧ s.pendingSwaps 0 = [] ∧ (s.graph 0).pocket = []) ∧
    (let s := treeOf [recordOf 0 0, recordOf 6 2, recordOf 5 2, recordOf 11 0, recordOf 11 0] 1
     (s.graph 0).mayResolve = true ∧ (match s.resolve 0 with | .fail c _ => decide (c = 0x80) | _ => false) = true) := by
  refine ⟨?_, ?_⟩ <;> decide +kernel

/-- The address at which the tables map the first byte of storage. -/
def mapped : Nat := 2 ^ 39 + 2 ^ 31

/-- The tables of address space 0. -/
def tableBytes : SMap Byte := [(0, 1), (8, 3), (16, 0x1D)]

/-- An image of one page, 7, with the three records of its tree (R127-R131). -/
def image0 : List Byte :=
  [0x0E, 0x7A, 0xC1, 0xD4, 1, 1, 0, 0, 0, 0, 0, 0, 3, 0, 0x49] ++ List.replicate 17 0 ++ [0x50, 1, 0, 0, 0xCF, 0xBB, 0x18, 0x8A] ++ List.replicate 264 0 ++ [5] ++
  List.replicate 14 0 ++ [0x50] ++ List.replicate 15 0 ++ [0xB0]

/-- Queue 4 with 16 slots at 0x400, its record naming the image at 0x800 in the mapped space; TAIL 1, HEAD 0. -/
def queueOf (img : Nat) : State :=
  { fabric [] with
    mem := tableBytes ++ bytesFrom 0x200 (leBytes 8 0x400 ++ [4, 2, 3, 0]) ++ [(0x240, 1)] ++ bytesFrom 0x400 (leBytes 8 img) ++ bytesFrom 0x800 image0
    block := { State.reset.block with qtable := 1 }
    dist := { seen := [(4, 1)], since := [(4, 1)], frees := 0 } }

/-- A graph of queue 4 that has ended, with a completion counter. -/
def endedOf (compl : Nat) : State :=
  { fabricOf { graph0 with st := .ended, queue := some 4, compl := compl } [] with mem := tableBytes }

/-- R219-R245, R440: a running graph to sweep; a queue that is on; a graph of a queue that has ended without a counter, with one, and with one that cannot be
reached; heads of good and of bad form. -/
theorem witness_SweepsAndQueues :
    (let s := fabricOf { graph0 with act := 5, swept := 5, clean := 1 } []
     s.graphIxs.Nodup ∧ (s.graph 0).live = true ∧ (s.graph 0).started = true ∧ (s.graph 0).act = (s.graph 0).swept ∧ (s.graph 1).live = false ∧
     SMap.wf .empty s.sites = true) ∧
    (let s := fabricOf { graph0 with act := 6, swept := 5 } []
     s.graphIxs.Nodup ∧ (s.graph 0).started = true ∧ (s.graph 0).act ≠ (s.graph 0).swept) ∧
    (let s := queueOf 0
     s.queueOn 4 = true) ∧
    (let s := endedOf (mapped + 0x300)
     (s.graph 0).queue = some 4 ∧ (s.graph 0).st = .ended ∧ (s.graph 0).compl ≠ 0 ∧ s.enginePas 0 .store 2 (mapped + 0x300) 4 = .ok (addrs 0x300 4) ∧
     (∀ p ∈ addrs 0x300 4, p < blockBase) ∧ s.storeRefused (addrs 0x300 4) = none ∧ s.unstorable (addrs 0x300 4) = none ∧ s.undeliverables (addrs 0x300 4) = none) ∧
    ((endedOf 0).graph 0).compl = 0 ∧
    (let s := endedOf 0x300
     (s.graph 0).compl ≠ 0 ∧ (match s.enginePas 0 .store 2 0x300 4 with | .error _ => true | .ok _ => false) = true) ∧
    (let s := queueOf 1
     s.considered = some 4 ∧ launchOk (s.queueRecord 4) = false) := by
  simp only [ok_iff]
  refine ⟨?_, ?_, ?_, ?_, ?_, ?_, ?_⟩ <;> decide +kernel

/-- The queue with an image of 17 pages, of which PAGES and the page table can be read. -/
def bigState : State :=
  let s := queueOf (mapped + 0x800)
  { s with mem := tableBytes ++ bytesFrom 0x200 (leBytes 8 0x400 ++ [4, 2, 3, 0]) ++ [(0x240, 1)] ++ bytesFrom 0x400 (leBytes 8 (mapped + 0x800)) ++ [(0x805, 17)] ++
      (List.range 17).map fun k => (0x900 + 8 * k, BitVec.ofNat 8 k) }

/-- R224-R227: a head of good form whose graph fits. -/
theorem witness_SweepsAndQueues_launch :
    let s := bigState
    let r := s.queueRecord 4
    s.considered = some 4 ∧ launchOk r = true ∧ launchImg r = mapped + 0x800 ∧
    (match s.engineRead 0 (launchImg r + 5) 1 with | .ok n => decide (n = [17]) | _ => false) = true ∧
    (match s.engineRead 0 (launchImg r + 256) 136 with
     | .ok pre => (s.queuePlace { Graph.free with live := true, asid := 0, prio := 2, queue := some 4, compl := 0, img := launchImg r,
                                                  loads := [⟨0, launchImg r, 0, .launch 4 0, pre, 17, []⟩] }
        (⟨0, launchImg r, 0, .launch 4 0, pre, 17, []⟩ : Load).pages (s.imageAt 0 (launchImg r))).isSome
     | _ => false) = true ∧
    (∀ p ∈ addrs (s.queueAt 4 + 16) 4, window p ≠ .none ∧ window p ≠ .block ∧ s.unstorable [p] = none) := by
  decide +kernel

/-- A graph with a load of image0 for plane 0 of its page, which is in a state. -/
def loadOf (st : PlaneState) (bytes : List Byte) (kind : LoadKind) : State :=
  let l : Load := ⟨0, mapped + 0x800, 0, kind, (image0.drop 256).take 8, 1, bytes⟩
  { fabricOf { graph0 with st := .idle, running := [], loads := [l] } [] with
    regions := [(0, { Region.reset with planes := [(0, ⟨st, some 0, 0, 0, mapped + 0x800⟩)] })]
    mem := tableBytes ++ bytesFrom 0x800 image0 }

/-- What the clauses about a load ask: the load, and how much of its image has come. -/
def Loads (s : State) (n : Nat) (kind : LoadKind) : Prop :=
  (s.graph 0).ctx ≠ .cut ∧ (s.graph 0).loadAt 0 = some ⟨0, mapped + 0x800, 0, kind, (image0.drop 256).take 8, 1, image0.take n⟩

/-- The CRC of an image, its bytes in three pieces. -/
theorem imgCrc_pieces {bs a b c : List Byte} {x y z : Nat} (h : bs.take 36 ++ [0, 0, 0, 0] ++ bs.drop 40 = a ++ (b ++ c))
    (ha : a.foldl crcByte 0xFFFFFFFF = x) (hb : b.foldl crcByte x = y) (hc : c.foldl crcByte y = z) : imgCrc bs = z ^^^ 0xFFFFFFFF := by
  rw [imgCrc, h, List.foldl_append, ha, List.foldl_append, hb, hc]

/-- The bytes that the CRC of image0 covers. -/
theorem crc0_split : image0.take 36 ++ [0, 0, 0, 0] ++ image0.drop 40 =
    (image0.take 36 ++ List.replicate 92 0) ++ (List.replicate 112 0 ++ image0.drop 240) := by decide +kernel

theorem crc0_head : (image0.take 36 ++ List.replicate 92 0).foldl crcByte 0xFFFFFFFF = 677600490 := by decide +kernel

theorem crc0_middle : (List.replicate 112 (0 : Byte)).foldl crcByte 677600490 = 2710481840 := by decide +kernel

theorem crc0_tail : (image0.drop 240).foldl crcByte 2710481840 = 1978090544 := by decide +kernel

theorem crc0 : imgCrc image0 = 1978090544 ^^^ 0xFFFFFFFF := imgCrc_pieces crc0_split crc0_head crc0_middle crc0_tail

/-- The tables of image0 pass. -/
theorem tables0 : checkTables image0 [] = none := by
  rw [checkTables, crc0]
  decide +kernel

/-- The checks of an image once its tables have passed. -/
theorem checkImage_tables {bs bl : List Byte} {rc : Bool} {held : Nat → Bool} (h : checkTables bs bl = none)
    (h1 : firstBad [checkFrames (imageOf bs) held none 0 (imageOf bs).frames, checkGens (imageOf bs) (imgGens bs),
      badIf ((imageOf bs).table.any fun t => !held t.page) 0x62 0xFFFFFFFF] = none)
    (h2 : firstBad (((imageOf bs).table.zip (imageOf bs).nframes).map fun (p : PageInfo × Nat) => checkPage (imageOf bs) p.1 p.2) = none)
    (h3 : checkGraph (imageOf bs) rc = none) (h4 : checkRecords (imageOf bs) (imgRecords bs) = none) : checkImage bs bl rc held = none := by
  simp only [checkImage, h, h1, h2, h3, h4]

/-- A load of an image without blocks that passes every check. -/
theorem loadCheck_passes {s : State} {g : GraphIx} {l : Load} {v : Bool} (h0 : l.img % 64 = 0) (h1 : 1 ≤ l.count ∧ l.count ≤ 64)
    (h3 : l.checkHead = none) (h4 : l.next = none) (h5 : imgNblk l.bytes = 0) (h6 : (s.graph g).nblk = 0)
    (h7 : (match l.kind with | .pages => false | .block _ => false | _ => true) = v) (h8 : ∀ n, l.kind ≠ .block n)
    (h10 : checkImage l.bytes [] false (fun p => v || ((s.graph g).place p).isSome) = none)
    (h11 : s.checkWorld l.asid l.bytes = none)
    (h12 : (s.bindGens (s.graph g) ((s.graph g).newGens (imageOf l.bytes)) s.taken).isSome = true) : s.loadCheck g l = none := by
  obtain ⟨b, hb⟩ := Option.isSome_iff_exists.mp h12
  have hn : ¬ 64 < l.count := by omega
  have hz : l.count ≠ 0 := by omega
  unfold State.loadCheck
  simp only [h0, h3, h4, h5, h6, hb, h11, hn, hz, ne_eq, not_true_eq_false, if_false, if_true, decide_false, Bool.or_self, Bool.false_eq_true, firstBad]
  cases hk : l.kind <;> simp_all <;> (split <;> first | rfl | (rw [h10]; rfl))

/-- A load of image0 passes, for each use. -/
theorem image0_loads (k : LoadKind) (h : k ∈ [LoadKind.graph, .pages, .launch 4 0]) :
    (loadOf .loading image0 k).loadCheck 0 ⟨0, mapped + 0x800, 0, k, (image0.drop 256).take 8, 1, image0⟩ = none := by
  simp only [List.mem_cons, List.not_mem_nil, or_false] at h
  rcases h with rfl | rfl | rfl
  · refine loadCheck_passes (v := true) ?_ ?_ ?_ ?_ ?_ ?_ rfl (fun _ => nofun) (checkImage_tables tables0 ?_ ?_ ?_ ?_) ?_ ?_ <;> decide +kernel
  · refine loadCheck_passes (v := false) ?_ ?_ ?_ ?_ ?_ ?_ rfl (fun _ => nofun) (checkImage_tables tables0 ?_ ?_ ?_ ?_) ?_ ?_ <;> decide +kernel
  · refine loadCheck_passes (v := true) ?_ ?_ ?_ ?_ ?_ ?_ rfl (fun _ => nofun) (checkImage_tables tables0 ?_ ?_ ?_ ?_) ?_ ?_ <;> decide +kernel
/-- R146-R150: loads at their start, in the middle, and with an INCOMPLETE plane; a whole image, for each use; an image that fails, at the first load and at a later one of a graph that runs and that does not. -/
theorem witness_ImageArrival :
    (∀ n ∈ [0, 256, 320], let s := loadOf .loading (image0.take n) .graph
     let l : Load := ⟨0, mapped + 0x800, 0, .graph, (image0.drop 256).take 8, 1, image0.take n⟩
     Loads s n .graph ∧ l.img % 64 = 0 ∧ l.count = 1 ∧ l.bytes.length = n ∧ (∀ e ∈ s.loadPlanes 0 l, (s.planeOf e).st ≠ .incomplete) ∧
     l.next = some (n, if n = 0 then 256 else if n = 256 then 32 else 16) ∧
     works (s.engineRead 0 (mapped + 0x800 + n) (if n = 0 then 256 else if n = 256 then 32 else 16)) = true ∧
     (n = 0 ∨ checkHeader l.bytes = none ∧ byteNat l.bytes 5 1 = l.count ∧ l.bytes.length < imgSize l.bytes)) ∧
    (let s := loadOf .incomplete (image0.take 256) .graph
     Loads s 256 .graph ∧ ∃ e ∈ s.loadPlanes 0 ⟨0, mapped + 0x800, 0, .graph, (image0.drop 256).take 8, 1, image0.take 256⟩, (s.planeOf e).st = .incomplete) ∧
    (∀ k ∈ [LoadKind.graph, .pages, .launch 4 0], let s := loadOf .loading image0 k
     let l : Load := ⟨0, mapped + 0x800, 0, k, (image0.drop 256).take 8, 1, image0⟩
     (s.graph 0).ctx ≠ .cut ∧ (s.graph 0).loadAt 0 = some l ∧ (∀ e ∈ s.loadPlanes 0 l, (s.planeOf e).st ≠ .incomplete) ∧ l.next = none ∧
     s.loadCheck 0 l = none) ∧
    (let s := loadOf .loading (0 :: image0.drop 1) .graph
     let l : Load := ⟨0, mapped + 0x800, 0, .graph, (image0.drop 256).take 8, 1, 0 :: image0.drop 1⟩
     (s.graph 0).loadAt 0 = some l ∧ (∀ e ∈ s.loadPlanes 0 l, (s.planeOf e).st ≠ .incomplete) ∧ l.next = none ∧ (s.loadCheck 0 l).isSome = true) ∧
    (∀ b : Bool, let l : Load := ⟨0, mapped + 0x800, 0, .pages, (image0.drop 256).take 8, 1, 0 :: image0.drop 1⟩
     let s0 := loadOf .loading (0 :: image0.drop 1) .pages
     let s := s0.updGraph 0 fun x => { x with st := if b then .run else .idle }
     (s.graph 0).loadAt 0 = some l ∧ (∀ e ∈ s.loadPlanes 0 l, (s.planeOf e).st ≠ .incomplete) ∧ l.next = none ∧ (s.loadCheck 0 l).isSome = true ∧
     (s.graph 0).live = true ∧ (s.graph 0).started = b ∧ (s.graph 0).ctx ≠ .restoring ∧ ∀ e ∈ s.ownedPlanes 0, e ∈ s.loadPlanes 0 l) := by
  simp only [Loads]
  refine ⟨?_, ?_, fun k h => ⟨?_, ?_, ?_, ?_, image0_loads k h⟩, ?_, ?_⟩
  case refine_3 => revert k; decide +kernel
  case refine_4 => revert k; decide +kernel
  case refine_5 => revert k; decide +kernel
  case refine_6 => revert k; decide +kernel
  all_goals decide +kernel

/-- A graph on region 0 of core 0 whose table entry of contexts stands at 0x400, with AREA 0x600. -/
def contextOf (x : Graph) (cycle : Nat) : State :=
  { fabricOf { x with table := [⟨0, false, false, 0, 0⟩] } [] with
    mem := bytesFrom 0x400 (leBytes 8 0x600 ++ leBytes 4 0x10000), ctxtab := 0x400, cycle := cycle
    repair := { State.reset.repair with regions := [(0, 0)] } }

/-- A saved context with a site, its record at 0x600. -/
def saved0 : Saved := ⟨0x600, 1024, false, [], [⟨0, 3, 0, .empty⟩], []⟩

/-- R231, R437-R448: a cut to be asked, none; a drained graph; a budget not spent, just spent, and spent with the graph frozen; a saved context; one that finds a
place; one that waits for its region and one that resumes, with a record that can be read and one that cannot. -/
theorem witness_Contexts :
    (let s := contextOf graph0 70000
     Clear (s.graph 0) ∧ (s.graph 0).st = .run ∧ (s.graph 0).ctx = .running ∧ (s.graph 0).frozen = false ∧ s.cutArea 0 = some (0x600, 0x10000) ∧ s.cutAsked 0 = true) ∧
    (let s := fabric []
     Clear (s.graph 0) ∧ s.cutArea 0 = none) ∧
    (∀ n ∈ [65535, 65536], ∀ b : Bool, let s := contextOf { graph0 with ctx := .draining, clean := 2, bare := 2, saved := some saved0, cutAt := 0, frozen := b } n
     Clear (s.graph 0) ∧ (s.graph 0).ctx = .draining ∧ 2 ≤ (s.graph 0).clean ∧ 2 ≤ (s.graph 0).bare ∧ (s.graph 0).pocket = [] ∧ (s.graph 0).saved = some saved0 ∧
     (s.graph 0).frozen = b ∧ (s.graph 0).settled = true ∧ ((s.graph 0).cutAt + (s.core (s.graph 0).home).drainb.toNat * 1024 ≤ s.cycle ↔ n = 65536)) ∧
    (let s := contextOf { graph0 with ctx := .saving, saved := some saved0 } 5
     Clear (s.graph 0) ∧ (s.graph 0).ctx = .saving ∧ (s.graph 0).clone = []) ∧
    (let s := { contextOf { graph0 with ctx := .cut, saved := some saved0, pages := [] } 5 with regions := [] }
     (s.graph 0).live = true ∧ (s.graph 0).saved = some saved0 ∧ (s.graph 0).ctx = .cut ∧ (s.placeCut 0).isSome = true) ∧
    (∀ b : Bool, let s0 := contextOf { graph0 with ctx := .restoring, saved := some saved0 } 5
     let s := if b then { s0 with repair := { s0.repair with marks := [(0xC1, 0xB1)] } } else s0
     (s.graph 0).live = true ∧ (s.graph 0).saved = some saved0 ∧ (s.graph 0).ctx = .restoring ∧ (s.graph 0).loads = [] ∧ saved0.bytes = [] ∧
     s.heldOff 0 = false ∧ (s.graph 0).place 0 = some (0, 0) ∧
     (s.undeliverables (addrs saved0.area saved0.size)).isSome = b) ∧
    (let s0 := contextOf { graph0 with ctx := .restoring, saved := some saved0 } 5
     let s : State := { s0 with graphs := s0.graphs ++ [(1, graph0)], regions := [(0, { region0 with planes := region0.planes ++ [(1, ⟨.active, some 1, 0, 0, 0⟩)] })] }
     (s.graph 0).live = true ∧ (s.graph 0).saved = some saved0 ∧ (s.graph 0).ctx = .restoring ∧ s.heldOff 0 = true) := by
  have clear : ∀ x : Graph, Clear x ↔ x.live = true ∧ x.raised = [] ∧ x.noted = [] := fun x => ⟨fun h => ⟨h.live, h.raised, h.noted⟩, fun ⟨a, b, c⟩ => ⟨a, b, c⟩⟩
  simp only [clear]
  refine ⟨?_, ?_, ?_, ?_, ?_, ?_, ?_⟩ <;> decide +kernel

/-- A record for a block. -/
def record (b : Nat) : Token := ⟨0, false, false, 0x8001, [7] ++ List.replicate 14 0 ++ [BitVec.ofNat 40 b]⟩

/-- A graph of two blocks with entries at 0x300 and queues of two records at 0x500 and 0x600; block 0's image stands on the graph's plane. -/
def blockOf (x : Graph) (y : SitePlane) : State :=
  let entry := fun (img qb : Nat) => leBytes 8 (mapped + img) ++ leBytes 8 (mapped + qb) ++ [1] ++ List.replicate 15 0
  { fabricOf { x with nblk := 2, blktab := mapped + 0x300, table := [⟨0, false, true, 0, 0x11⟩] } [] with
    regions := [(0, { region0 with planes := [(0, ⟨.active, some 0, 0, 0, mapped + 0x400⟩)] })]
    sites := [(eltKey (at_ 15), y)]
    mem := tableBytes ++ bytesFrom 0x300 (entry 0x400 0x500 ++ entry 0x800 0x600) ++ [(0x805, 1)] }

/-- Tokens at streams of the port site. -/
def cuffs (l : List (Nat × Token)) : SitePlane := { SitePlane.empty with cuffs := heads l }

/-- R233, R235, R236: a page to clone at the limit of its stall counter; a record for a resident block, for one with room in its queue and for one without; records to
let in, a block to load, and a graph that has none left. -/
theorem witness_ClonesAndBlocks :
    (let s := blockOf graph0 { SitePlane.empty with stalls := [(0, 49152)] }
     s.cloneDue 0 (0 : BitVec 6).toNat = true ∧ s.cuffOf 0 0 = some (at_ 15) ∧ s.cloneSpot 0 = some (1, (0 : Fin 4).val)) ∧
    (∀ b ∈ [0, 1], ∀ n ∈ [0, 2], let s := blockOf { graph0 with blocks := if n = 0 then [] else [(1, ⟨0, n, false⟩)] } (cuffs [(8, record b)])
     let k := record b
     s.dispatches 0 0 0 = some (at_ 15) ∧ s.cuffHead (at_ 15) 8 = some k ∧ k.kind = 0 ∧ k.err = false ∧ (k.lane 15).toNat % 256 = b ∧ b < (s.graph 0).nblk ∧
     s.blockPlane 0 b = (if b = 0 then some (at_ 15) else none) ∧ s.retOf (.cuff (at_ 15) 0) = true ∧ s.blockEntry 0 1 = some (mapped + 0x800, mapped + 0x600, 1) ∧
     (s.graph 0).waiting 1 = n) ∧
    (let s := blockOf graph0 (cuffs [(8, record 1)])
     (match (s.cuffPop (at_ 15) 8).engineWrite 0 (mapped + 0x600) (recordBytes (record 1)) with
      | some u => (u.countBlock 0 1 fun q => { q with tail := q.tail + 1 }).isSome
      | none => false) = true) ∧
    (let s := blockOf { graph0 with blocks := [(0, ⟨0, 1, false⟩)] } .empty
     (s.graph 0).nblk ≠ 0 ∧ (s.graph 0).sitesRun = true ∧ s.feedable 0 = some (0, at_ 15) ∧ s.blockEntry 0 0 = some (mapped + 0x400, mapped + 0x500, 1) ∧
     s.retOf (.cuff (at_ 15) 0) = true ∧
     (match s.engineRead 0 (mapped + 0x500) 96 with
      | .ok bs => ((s.arrive (.cuff (at_ 15) 0) (recordToken bs)).countBlock 0 0 fun q => { q with head := q.head + 1 }).isSome
      | .error _ => false) = true) ∧
    (∀ n ∈ [0, 1], let s := blockOf { graph0 with clean := 2, blocks := if n = 0 then [] else [(1, ⟨0, n, false⟩)] } .empty
     s.feedable 0 = none ∧ (s.graph 0).quiet = true ∧ s.streamsEmpty 0 = true ∧ (s.graph 0).loads = [] ∧ s.loadable 0 = (if n = 0 then none else some 1) ∧
     s.idlePlane 0 = some 1 ∧ (s.graph 0).running ≠ [] ∧ (s.graph 0).gens = [] ∧ ∀ m < 2, (s.graph 0).waiting m = if m = 1 then n else 0) ∧
    (let s := blockOf { graph0 with clean := 2, bare := 2, tree := tree0, walk := enter tree0 18 [] (.sub 0) } .empty
     (s.graph 0).mayResolve = true ∧ s.resolve 0 = .ok 4 ∧ acting (s.graph 0) 4 4 = [] ∧ (s.graph 0).arms = 0 ∧ acting (s.graph 0) 4 9 = [] ∧ s.pendingSwaps 0 = [] ∧
     (s.graph 0).pocket = [] ∧ s.recordsDone 0 = true) := by
  refine ⟨?_, ?_, ?_, ?_, ?_, ?_⟩ <;> decide +kernel

end Sys2Proof.Tests
end

