-- ==== Sys2Proof/Tests/WitnessCommands.lean ====
section
/-! SUPPORT. Witnesses for the completion statement of the commands, generators and events: for each clause a state that meets its
hypotheses together. -/

namespace Sys2Proof.Tests

/- Each proof is checked before the next one begins, so that the checks do not wait for one another in memory. -/
set_option Elab.async false

open Machine Claims

/-- A graph is clear. -/
theorem clear_iff {x : Graph} : Clear x ↔ x.live = true ∧ x.raised = [] ∧ x.noted = [] :=
  ⟨fun h => ⟨h.live, h.raised, h.noted⟩, fun ⟨a, b, c⟩ => ⟨a, b, c⟩⟩

/-- PLEAT with the table of a single root at 0x400. -/
def rootState : State := pleatOf 1 [node 5 0 0 0]

/-- A generator that waits for its request, whose address is no multiple of 64. -/
def oddRequest : State :=
  let k : Token := value [4, 0]
  fabricOf { graph0 with gens := [(0, { gen0 (BitVec.ofNat 256 (0x0C * 2 ^ 232)) [] with line := [⟨k, false, some 4, none⟩], reqs := [k] })] } []

/-- R238, R239, R416: the commands of configuration and of held graphs. -/
theorem witness_CommandsComplete_commands :
    (let s := planeState Graph.free .none
     (s.reg 2).toNat + 1 ≤ 2 ^ 52 ∧ s.reg 1 ≠ 0 ∧ s.byHandle (s.reg 1) = some 5 ∧ (s.graph 5).ctx = .running ∧
     s.span (s.reg 2 + 5) 1 .load = .ok (addrs 0x105 1) s ∧ s.bytesAt (addrs 0x105 1) = [8] ∧ s.undeliverables (addrs 0x105 1) = none ∧ isBlock (addrs 0x105 1) = false ∧
     s.span (s.reg 2 + 256) 64 .load = .ok (addrs 0x200 64) s ∧ s.undeliverables (addrs 0x200 64) = none ∧ isBlock (addrs 0x200 64) = false ∧
     (s.graph 5).pages = [(7, 0, 0)] ∧ ((s.region 0 0).plane 0).st = .empty ∧ ((s.region 0 0).plane 0).owner = none) ∧
    (let s := planeState Graph.free ⟨.shadow, some 5, 7, 0, 0⟩
     s.byHandle (s.reg 1) = some 5 ∧ (s.graph 5).ctx = .running ∧ (s.graph 5).clone = [] ∧ (s.graph 5).pages = [(7, 0, 0)] ∧
     ((s.region 0 0).plane 0).st = .shadow ∧ ((s.region 0 0).plane 0).owner = some 5) ∧
    (let h : Held := ⟨0x80, 0x123, false, 0, 0⟩
     ((heldState h).graph 5).st = .held ∧ ((heldState h).graph 5).held = some h) ∧
    ((strayState.graph 5).st = .held ∧ (strayState.graph 5).held = some ⟨0x66, 0, false, 0, 15 + 2 ^ 20⟩ ∧ (strayState.strays 5).map (·.code) = [15 + 2 ^ 20]) := by
  refine ⟨?_, ?_, ?_, ?_⟩ <;> decide +kernel

/-- R346-R349, R384, R389: the generators of cameras, lattices and rings. -/
theorem witness_CommandsComplete_generators :
    (let t := ints [0]
     let s := camGen 0x10 0 0 [t] .empty
     let q := (after s).gen g0
     GenReady s g0 0x10 ∧ Meets (after s) g0 t ∧ t.kind = 0 ∧ t.valid 0 = true ∧ int t 0 = 0 ∧ q.f.getLsbD 4 = false ∧ gBase q.f + 128 ≤ 2 ^ 52 ∧
     (match gread g0 (gBase q.f) 128 (opened (after s) g0) with
      | .ok (img, _) => camOk ((after s).graph 0).stores.length img
      | _ => false) = true) ∧
    (∀ op ∈ [0x11, 0x12], let t := coord 0x4070000000
     let s := camGen op 0 0 [t] .empty
     let q := (after s).gen g0
     GenReady s g0 op ∧ Meets (after s) g0 t ∧ t.kind = 0 ∧ gClass q.f ≠ 2 ∧ (∀ j < 3, t.valid j = true ∧ readW40 (t.lane j) ≠ .nan) ∧
     camOk ((after s).graph 0).stores.length q.cam = true ∧
     inView q.cam (t.lane 0) (t.lane 1) (if op = 0x11 then t.lane 2 else Camera.near q.cam) = false) ∧
    (let c := coord 0x4070000000
     let s := camGen 0x13 0 0 [bareOf 1] { GenPart.empty with first := some c, toks := [value [5]] }
     let q := (after s).gen g0
     GenReady s g0 0x13 ∧ Meets (after s) g0 (bareOf 1) ∧ gClass q.f ≠ 2 ∧ q.part.first = some c ∧
     ((((after s).graph 0).storeOf q.cam).plen + 15) / 16 ≤ q.part.toks.length ∧ inView q.cam (c.lane 0) (c.lane 1) (c.lane 2) = false) ∧
    (let t := value [0x400, 0, 3]
     GenReady rootState g0 0x14 ∧ Meets (after rootState) g0 t ∧ t.kind = 0 ∧ t.valid 0 = true ∧ t.valid 1 = true ∧ t.valid 2 = true ∧
     ((t.lane 0).setWidth 32).toNat + 2 ^ 32 * ((t.lane 1).setWidth 20).toNat = 0x400 ∧
     (match gnat g0 0x400 8 (after rootState) with
      | .ok (h, w1) => decide (h = 1) && (match gnat g0 0x408 8 w1 with | .ok (n, _) => decide (n < 2 ^ 32) | _ => false)
      | _ => false) = true) ∧
    (let s := ringOf 0 (bareOf 2) { GenPart.empty with first := some (ints [2]), toks := [item5, bareOf 1] }
     let q := (after s).gen g0
     GenReady s g0 0x15 ∧ Meets (after s) g0 (bareOf 2) ∧ q.part.first = some (ints [2]) ∧
     (match gunder (fun s => s.withOwn g0) (gread g0 (gBase q.f + 64 * (int (ints [2]) 0).toNat) 64) (opened (after s) g0) with
      | .ok (bs, _) => (slotEntry bs).any fun e => itemsOk e.pos (rowsOf q.part.toks []) && decide (e.st = 0)
      | _ => false) = true) := by
  simp only [genReady_iff, meets_iff]
  refine ⟨?_, ?_, ?_, ?_, ?_⟩ <;> decide +kernel

/-- R231, R233, R236, R371-R375, R437-R449: the events of contexts, clones, blocks and collectives. -/
theorem witness_CommandsComplete_events :
    (let s := contextOf graph0 70000
     Clear (s.graph 0) ∧ (s.graph 0).st = .run ∧ (s.graph 0).ctx = .running ∧ (s.graph 0).frozen = false ∧ s.cutArea 0 = some (0x600, 0x10000) ∧ s.cutAsked 0 = true) ∧
    (∀ b : Bool, let s := contextOf { graph0 with ctx := .draining, clean := 2, bare := 2, saved := some saved0, cutAt := 0, frozen := b } 65536
     Clear (s.graph 0) ∧ (s.graph 0).ctx = .draining ∧ 2 ≤ (s.graph 0).clean ∧ 2 ≤ (s.graph 0).bare ∧ (s.graph 0).pocket = [] ∧ (s.graph 0).saved = some saved0 ∧
     (s.graph 0).frozen = b ∧ (s.graph 0).settled = true ∧ (s.graph 0).cutAt + (s.core (s.graph 0).home).drainb.toNat * 1024 ≤ s.cycle) ∧
    (let s := contextOf { graph0 with ctx := .saving, saved := some saved0 } 5
     Clear (s.graph 0) ∧ (s.graph 0).ctx = .saving) ∧
    (let s := { contextOf { graph0 with ctx := .cut, saved := some saved0, pages := [] } 5 with regions := [] }
     (s.graph 0).live = true ∧ (s.graph 0).saved = some saved0 ∧ (s.graph 0).ctx = .cut ∧ (s.placeCut 0).isSome = true) ∧
    (let s := contextOf { graph0 with ctx := .restoring, saved := some saved0 } 5
     (s.graph 0).live = true ∧ (s.graph 0).saved = some saved0 ∧ (s.graph 0).ctx = .restoring ∧ (s.graph 0).loads = [] ∧ s.heldOff 0 = false ∧ saved0.bytes = [] ∧
     s.undeliverables (addrs saved0.area saved0.size) = none) ∧
    (let s := blockOf graph0 { SitePlane.empty with stalls := [(0, 49152)] }
     s.cloneDue 0 (0 : BitVec 6).toNat = true ∧ s.cuffOf 0 0 = some (at_ 15) ∧ s.cloneSpot 0 = some (1, (0 : Fin 4).val)) ∧
    (let s := blockOf graph0 (cuffs [(8, record 0)])
     s.dispatches 0 0 0 = some (at_ 15) ∧ s.cuffHead (at_ 15) 8 = some (record 0) ∧ (record 0).kind = 0 ∧ (record 0).err = false ∧
     ((record 0).lane 15).toNat % 256 < (s.graph 0).nblk ∧ s.blockPlane 0 (((record 0).lane 15).toNat % 256) = some (at_ 15) ∧ s.retOf (.cuff (at_ 15) 0) = true) ∧
    (let s := blockOf { graph0 with clean := 2, blocks := [(1, ⟨0, 1, false⟩)] } .empty
     (s.graph 0).nblk ≠ 0 ∧ (s.graph 0).sitesRun = true ∧ s.feedable 0 = none ∧ (s.graph 0).quiet = true ∧ s.streamsEmpty 0 = true ∧ (s.graph 0).loads = [] ∧
     s.loadable 0 = some 1 ∧ s.idlePlane 0 = some 1 ∧ s.blockEntry 0 1 = some (mapped + 0x800, mapped + 0x600, 1)) ∧
    ((oddRequest.gen g0).reqs = value [4, 0] :: [] ∧ (oddRequest.gen g0).line = [⟨value [4, 0], false, some 4, none⟩] ∧ oddRequest.colls = [] ∧
     (((value [4, 0]).lane 0).setWidth 32).toNat % 64 ≠ 0) ∧
    (let d := fun (n : Nat) => descOf 0x500 0x500 2 0 2 n
     let l := [collReq 0 4 (d 0) 0, collReq 1 5 (d 1) 0]
     CollDesc.tag (d 1) = CollDesc.tag (d 0) ∧ CollDesc.ranks (d 0) = 2 ∧ CollDesc.rank (d 0) = 0 ∧ CollDesc.rank (d 1) = 1 ∧ collOverlap l = true ∧
     (collState (d 0) 0 l 3).colls = l) ∧
    (let r := collReq 0 4 (member 0 2 0) 5
     (collState (member 0 2 0) 0 [r] (2 ^ 28 + 5)).colls = [r] ∧ r.since + 2 ^ 28 ≤ (collState (member 0 2 0) 0 [r] (2 ^ 28 + 5)).cycle) := by
  simp only [clear_iff]
  refine ⟨?_, ?_, ?_, ?_, ?_, ?_, ?_, ?_, ?_, ?_, ?_⟩ <;> decide +kernel

end Sys2Proof.Tests
end

