-- ==== Sys2Proof/Tests/WitnessFabric.lean ====
section
/-! SUPPORT. Witnesses for the statements about the elements of the fabric: small states and operands that meet the hypotheses of
each clause together. -/

namespace Sys2Proof.Tests

/- Each proof is checked before the next one begins, so that the checks do not wait for one another in memory. -/
set_option Elab.async false

open Machine Claims

/-- A cell of an opcode and MOD at site 0 with heads, its plane as up leaves it. -/
def cellOf (op mod : Nat) (l : List (Nat × Token)) (up : SitePlane → SitePlane := id) : State := fabric [(0, up (site (frame op mod) l))]

/-- Values at the three ports. -/
def three : List (Nat × Token) := [(0, value [1, 2]), (1, value [3, 4]), (2, value [5])]

/-- One kind of closing at the three ports. -/
def closed (k : Fin 8) : List (Nat × Token) := [0, 1, 2].map fun p => (p, bareOf k)

/-- R171-R181: every lane-wise opcode, LBCAST, LPERM, LRED, LSCAN and LSHIFT with values at their ports. -/
theorem witness_LaneOperations :
    (∀ p ∈ laneCells, let s := cellOf p.2.1 0 three
     CellAt s 0 (at_ 0) (frame p.2.1 0) p.2.1 ∧ Values s (at_ 0) (portsOf (frame p.2.1 0) p.2.2.1) ∧ Free s 0 (at_ 0) 0) ∧
    (∀ p ∈ [(0x20, [0]), (0x21, [0, 1]), (0x22, [0]), (0x23, [0]), (0x24, [0])], let s := cellOf p.1 0x21 three
     CellAt s 0 (at_ 0) (frame p.1 0x21) p.1 ∧ Values s (at_ 0) (portsOf (frame p.1 0x21) p.2) ∧ Free s 0 (at_ 0) 0) := by
  simp only [cellAt_iff, mayFire_iff, values_iff, free_iff]
  refine ⟨?_, ?_⟩ <;> decide +kernel

/-- R172, R182-R187: every opcode with state and values at its ports; ICDF at its first value, DELAY with a line not full, GEN before and at its last
value. -/
theorem witness_StreamCells :
    (∀ p ∈ [(0x28, [0]), (0x2A, [0]), (0x33, [0]), (0x34, [0]), (0x32, [0, 1]), (0x29, [0]), (0x31, [0]), (0x2C, [0, 1]), (0x2D, [0, 1])],
     let s := cellOf p.1 1 three
     CellAt s 0 (at_ 0) (frame p.1 1) p.1 ∧ Values s (at_ 0) (portsOf (frame p.1 1) p.2) ∧ Free s 0 (at_ 0) 0 ∧
     (s.site (at_ 0)).cell.seen = false ∧ (s.site (at_ 0)).cell.line.length < delayN (modOf (frame p.1 1))) ∧
    (∀ n ∈ [2, 3], let s := cellOf 0x2B 1 three fun x => { x with cell := { Cell.reset with n := n } }
     CellAt s 0 (at_ 0) (frame 0x2B 1) 0x2B ∧ Values s (at_ 0) (portsOf (frame 0x2B 1) [0, 1]) ∧ Free s 0 (at_ 0) 0 ∧ (s.site (at_ 0)).cell.n = n ∧
     ((((operand s 0 (at_ 0) (frame 0x2B 1) 1).lane 0).setWidth 32).toInt = 3)) := by
  simp only [cellAt_iff, mayFire_iff, values_iff, free_iff]
  refine ⟨?_, ?_⟩ <;> decide +kernel

/-- The accumulating opcodes with the ports they read and how many results each owes. -/
def owing : List (Nat × List Nat × Nat) := [(0x28, [0], 1), (0x2A, [0], 1), (0x33, [0], 2), (0x34, [0], 1), (0x32, [0, 1], 1)]

/-- R98, R171, R172: every kind of closing at every opcode; accumulating opcodes before and after their last result. -/
theorem witness_StopsInCells :
    (∀ p ∈ plainCells, ∀ k : Fin 8, k ≠ 0 → let s := cellOf p.2.1 0 (closed k)
     CellAt s 0 (at_ 0) (frame p.2.1 0) p.2.1 ∧ Stops s (at_ 0) (portsOf (frame p.2.1 0) p.2.2) k ∧ Free s 0 (at_ 0) 0) ∧
    (∀ p ∈ owing, ∀ n ∈ [p.2.2 - 1, p.2.2],
     let s := cellOf p.1 2 (closed 6) fun x => { x with cell := { Cell.reset with out := n } }
     CellAt s 0 (at_ 0) (frame p.1 2) p.1 ∧ Stops s (at_ 0) (portsOf (frame p.1 2) p.2.1) 6 ∧ Free s 0 (at_ 0) 0 ∧
     rlvlOf (frame p.1 2) + 1 ≤ (6 : Fin 8).val ∧ (s.site (at_ 0)).cell.out = n ∧ (if p.1 = 0x33 then topK (modOf (frame p.1 2)) else 1) = p.2.2) := by
  simp only [cellAt_iff, mayFire_iff, stops_iff, free_iff]
  refine ⟨?_, ?_⟩ <;> decide +kernel

/-- An error token. -/
def errToken : Token := ⟨0, true, false, 3, List.replicate 16 0⟩

/-- A drain of one element, at a port or at all of which D stands. -/
def draining (op : Nat) (r : Bool) (l : List (Nat × Token)) (o : List Nat) : State :=
  let h : Half := { Half.reset with drain := some [], dOut := o }
  fabric [(0, if r then { router (frame op 0) l with rout := h } else { site (frame op 0) l with elem := h })]

/-- R100-R102, R206: an error token at the last port of every cell, heads of two kinds at those with two ports; a compute cell, a fibre cell and a
router that drain, with a token to discard and with D at every port. -/
theorem witness_ErrorTokensAndDrains :
    (∀ p ∈ plainCells ++ keepers, ∀ q ∈ portsOf (frame p.2.1 0) p.2.2, let s := cellOf p.2.1 0 [(q, errToken)]
     CellAt s 0 (at_ 0) (frame p.2.1 0) p.2.1 ∧ Free s 0 (at_ 0) 0 ∧ (s.site (at_ 0)).head q = some errToken ∧ errToken.err = true ∧
     ∀ u ∈ portsOf (frame p.2.1 0) p.2.2, u < q → (s.site (at_ 0)).head u = none) ∧
    (∀ p ∈ plainCells, portsOf (frame p.2.1 0) p.2.2 = [0, 1] → let s := cellOf p.2.1 0 [(0, value []), (1, bareOf 7)]
     CellAt s 0 (at_ 0) (frame p.2.1 0) p.2.1 ∧ Free s 0 (at_ 0) 0 ∧ (s.site (at_ 0)).head 0 = some (value []) ∧ (s.site (at_ 0)).head 1 = some (bareOf 7) ∧
     (value []).err = false ∧ (bareOf 7).err = false ∧ (value []).kind ≠ (bareOf 7).kind) ∧
    (∀ d ∈ drainers (frame 0 0), let o := if d.2.2.2 then [1] else [0]
     let s := draining d.2.1 d.2.2.2 [((d.2.2.1.head?).getD 0, errToken)] o
     MayFire s 0 (at_ 0) d.2.2.2 ∧ (if d.2.2.2 then (s.site (at_ 0)).switch else (s.site (at_ 0)).comp) = some (frame d.2.1 0) ∧ opcOf (frame d.2.1 0) = d.2.1 ∧
     ((s.site (at_ 0)).half d.2.2.2).drain = some [] ∧ (d.2.2.1.filter fun p => ((s.site (at_ 0)).head p).isSome) ≠ [] ∧
     (d.2.2.1.all fun p => ((s.site (at_ 0)).head p).any fun k => k.kind = 7) = false) ∧
    (∀ d ∈ drainers (frame 0 0), let o := if d.2.2.2 then [1] else [0]
     let s := draining d.2.1 d.2.2.2 ((List.range 6).map fun p => (p, bareOf 7)) o
     MayFire s 0 (at_ 0) d.2.2.2 ∧ (if d.2.2.2 then (s.site (at_ 0)).switch else (s.site (at_ 0)).comp) = some (frame d.2.1 0) ∧
     (d.2.2.1.all fun p => ((s.site (at_ 0)).head p).any fun k => k.kind = 7) = true ∧
     (∀ q ∈ ((s.site (at_ 0)).half d.2.2.2).dOut, Free s 0 (at_ 0) q) ∧ ((s.site (at_ 0)).half d.2.2.2).dOut.Nodup) := by
  simp only [cellAt_iff, mayFire_iff, free_iff]
  refine ⟨?_, ?_, ?_, ?_⟩ <;> decide +kernel

/-- The drains listed for a frame depend on its MOD and its sources alone. -/
theorem drainers_of {f g : FrameBits} (a : modOf f = modOf g) (b : ∀ i, srcOf f i = srcOf g i) : drainers f = drainers g := by
  unfold drainers portsOf
  simp only [a, b]

/-- So every one of them is one of its own frame's. -/
theorem drainers_frame : ∀ d ∈ drainers (frame 0 0), d ∈ drainers (frame d.2.1 0) := by
  have z : ∀ d ∈ drainers (frame 0 0), modOf (frame d.2.1 0) = modOf (frame 0 0) ∧
      ∀ lo < 207, fld (frame d.2.1 0) lo 2 = fld (frame 0 0) lo 2 := by decide +kernel
  intro d m
  rw [drainers_of (z d m).1 fun i => (z d m).2 (206 - 2 * i) (by omega)]
  exact m

/-- A token of signed digits, or of scales, of one lane. -/
def digits (n : Int) : Token := ints [n]

/-- A signed-digit cell at site 0. -/
def sdOf (op : Nat) (l : List (Nat × Token)) (d : Digits) : State := cellOf op 0 l fun x => { x with cell := { Cell.reset with dig := d } }

/-- R161, R188-R191: each opcode at a header; SDTOW and SDCMP at the stop with good and with malformed digits; SDCUT before and after it has cut. -/
theorem witness_SignedDigitCells :
    (∀ p ∈ [(0x38, [0, 1]), (0x39, [0, 1]), (0x3A, [0, 1]), (0x3C, [0]), (0x3B, [0])], let s := sdOf p.1 [(0, digits 255), (1, digits 125)] .none
     CellAt s 0 (at_ 0) (frame p.1 0) p.1 ∧ Values s (at_ 0) (portsOf (frame p.1 0) p.2) ∧ Free s 0 (at_ 0) 0 ∧ (s.site (at_ 0)).cell.dig.stop = none ∧
     (s.site (at_ 0)).elem.skip = false ∧ (s.site (at_ 0)).cell.dig.hdrA = none) ∧
    (∀ p ∈ [(0x3A, [0, 1]), (0x3C, [0])], ∀ n ∈ [(3 : Int), 4],
     let s := sdOf p.1 (closed 1) { Digits.none with hdrA := some (digits 1), hdrB := some (digits 2), plA := [digits n], plB := [digits 1] }
     CellAt s 0 (at_ 0) (frame p.1 0) p.1 ∧ Free s 0 (at_ 0) 0 ∧ (s.site (at_ 0)).cell.out = 0 ∧ Stops s (at_ 0) (portsOf (frame p.1 0) p.2) 1 ∧
     (s.site (at_ 0)).cell.dig.hdrA = some (digits 1) ∧ (s.site (at_ 0)).cell.dig.hdrB = some (digits 2) ∧
     sdFirstBad (if p.1 = 0x3A then [(s.site (at_ 0)).cell.dig.plA, (s.site (at_ 0)).cell.dig.plB] else [(s.site (at_ 0)).cell.dig.plA]) =
       if n = 3 then none else some (1, 0)) ∧
    (∀ c : Bool, let s := sdOf 0x3B [(0, digits 0)] { Digits.none with hdrA := some (digits 127), cut := c }
     CellAt s 0 (at_ 0) (frame 0x3B 0) 0x3B ∧ Values s (at_ 0) (portsOf (frame 0x3B 0) [0]) ∧ Free s 0 (at_ 0) 0 ∧ (s.site (at_ 0)).cell.dig.stop = none ∧
     (s.site (at_ 0)).elem.skip = false ∧ (s.site (at_ 0)).cell.dig.hdrA = some (digits 127) ∧ (s.site (at_ 0)).cell.dig.cut = c ∧
     (c = false → sdDecides (modOf (frame 0x3B 0)) (digits 127) [digits 0] = false)) := by
  simp only [cellAt_iff, mayFire_iff, values_iff, stops_iff, free_iff]
  refine ⟨?_, ?_, ?_⟩ <;> decide +kernel

/-- A fibre cell at site 0. -/
def fibreOf (op mod : Nat) (l : List (Nat × Token)) (q : Fibre) : State := cellOf op mod l fun x => { x with fibre := q }

/-- A token of mask bits: one lane of 32 bits. -/
def bitsOf (n : Lane) : Token := value [n]

/-- What every clause about a fibre cell asks of it. -/
def FibreReady (s : State) (op mod : Nat) : Prop := CellAt s 0 (at_ 0) (frame op mod) op ∧ Free s 0 (at_ 0) 0

/-- R210-R212, R214-R216: ranges that run backward, are not used up and are; masks with no bit, one and more left, alone and combined;
a bit tree at its root and at its leaves; repeats; reductions at values, S0, S1, D; what FDROP passes and drops. -/
theorem witness_FibreScans :
    (∀ op ∈ [0x50, 0x51], ∀ c ∈ [((-1 : Int), 0), (2, 1), (2, 2), (0, 0)],
     let a := if op = 0x50 then ints [7, 7 + c.1] else ints [7, c.1]
     let s := fibreOf op 0 [(0, a)] { Fibre.reset with i := c.2 }
     FibreReady s op 0 ∧ ValueAt s (at_ 0) 0 a ∧ (if op = 0x50 then int a 1 - int a 0 else int a 1) = c.1 ∧ ((s.site (at_ 0)).fibre.i : Int) = c.2) ∧
    (∀ c ∈ [((0 : Lane), ([] : List Nat)), (0x10, []), (0x80, [7]), (0xA0, [5, 7]), (0x8000A0, [5, 7, 23])],
     let s := fibreOf 0x52 0 [(0, bitsOf c.1)] { Fibre.reset with i := 5 }
     let u := fibreOf 0x53 0 [(0, bitsOf c.1)] { Fibre.reset with i := 5, rootA := some [3, 9], rootB := some [] }
     FibreReady s 0x52 0 ∧ ValueAt s (at_ 0) 0 (bitsOf c.1) ∧ (maskBits (bitsOf c.1)).filter (5 ≤ ·) = c.2 ∧
     FibreReady u 0x53 0 ∧ NoErrors u (at_ 0) [0] ∧ ValueAt u (at_ 0) 0 (bitsOf c.1) ∧ (u.site (at_ 0)).fibre.rootA = some [3, 9] ∧
     (u.site (at_ 0)).fibre.rootB = some []) ∧
    (∀ c ∈ [(1, ([] : List Nat)), (3, [3, 4])],
     let s := fibreOf 0x52 c.1 [(0, bitsOf 8), (1, bitsOf 16)] .reset
     let u := fibreOf 0x53 c.1 [(0, bitsOf 8), (1, bitsOf 16)] .reset
     FibreReady s 0x52 c.1 ∧ ValueAt s (at_ 0) 0 (bitsOf 8) ∧ ValueAt s (at_ 0) 1 (bitsOf 16) ∧ (modOf (frame 0x52 c.1)).getLsbD 0 = true ∧
     (if (modOf (frame 0x52 c.1)).getLsbD 1 then (List.range 512).filter fun n => (maskBits (bitsOf 8)).contains n || (maskBits (bitsOf 16)).contains n
       else (maskBits (bitsOf 8)).filter (maskBits (bitsOf 16)).contains) = c.2 ∧
     FibreReady u 0x53 c.1 ∧ NoErrors u (at_ 0) [0, 1] ∧ (u.site (at_ 0)).fibre.rootA = none) ∧
    (∀ c ∈ [((-1 : Int), 0), (1, 0), (1, 1)],
     let s := fibreOf 0x56 0 [(0, value [7]), (1, ints [c.1])] { Fibre.reset with i := c.2 }
     FibreReady s 0x56 0 ∧ ValueAt s (at_ 0) 0 (value [7]) ∧ ValueAt s (at_ 0) 1 (ints [c.1]) ∧ int (ints [c.1]) 0 = c.1 ∧ (s.site (at_ 0)).fibre.i = c.2) ∧
    (∀ k ∈ [(1 : Fin 8), 2, 7], ∀ o : Bool, let s := fibreOf 0x57 0 [(0, bareOf k)] { Fibre.reset with out := o, seen := !o }
     FibreReady s 0x57 0 ∧ StopAt s (at_ 0) 0 (bareOf k) ∧ (s.site (at_ 0)).fibre.out = o ∧ (s.site (at_ 0)).fibre.seen = !o ∧
     ValueAt (fibreOf 0x57 0 [(0, value [7])] .reset) (at_ 0) 0 (value [7])) ∧
    (∀ k ∈ [(0 : Fin 8), 1, 2, 7], ∀ o : Bool, let s := fibreOf 0x58 8 [(0, bareOf k)] { Fibre.reset with open_ := o }
     FibreReady s 0x58 8 ∧ (s.site (at_ 0)).head 0 = some (bareOf k) ∧ (bareOf k).err = false ∧ (bareOf k).mask = 0 ∧
     (modOf (frame 0x58 8)).getLsbD 3 = true ∧ (modOf (frame 0x58 8)).toNat % 8 = 0 ∧ (s.site (at_ 0)).fibre.open_ = o) := by
  simp only [FibreReady, cellAt_iff, mayFire_iff, valueAt_iff, stopAt_iff, noErrors_iff, free_iff]
  refine ⟨?_, ?_, ?_, ?_, ?_, ?_⟩ <;> decide +kernel

/-- R213, R214: coordinates equal, smaller at A and at B, rising and not, against a stop; closings of one kind and of two; a closing at every port of the
other fibre cells. -/
theorem witness_FibreMerges :
    (∀ op ∈ [0x54, 0x55], ∀ c ∈ [((3 : Int), (3 : Int)), (3, 4), (4, 3)], ∀ p ∈ [some (2 : Int), some 3, some 4, none],
     let s := fibreOf op 0 [(0, ints [c.1]), (1, ints [c.2])] { Fibre.reset with ca := p, cb := p }
     FibreReady s op 0 ∧ ValueAt s (at_ 0) 0 (ints [c.1]) ∧ ValueAt s (at_ 0) 1 (ints [c.2]) ∧ int (ints [c.1]) 0 = c.1 ∧ int (ints [c.2]) 0 = c.2 ∧
     (Rises (s.site (at_ 0)).fibre.ca c.1 ↔ p = none ∨ p = some 2 ∨ p = some 3 ∧ c.1 = 4) ∧
     (Rises (s.site (at_ 0)).fibre.cb c.2 ↔ p = none ∨ p = some 2 ∨ p = some 3 ∧ c.2 = 4)) ∧
    (∀ op ∈ [0x54, 0x55],
     let s := fibreOf op 0 [(0, ints [3]), (1, bareOf 7)] .reset
     let u := fibreOf op 0 [(0, bareOf 1), (1, ints [3])] .reset
     FibreReady s op 0 ∧ ValueAt s (at_ 0) 0 (ints [3]) ∧ StopAt s (at_ 0) 1 (bareOf 7) ∧ FibreReady u op 0 ∧ StopAt u (at_ 0) 0 (bareOf 1) ∧ ValueAt u (at_ 0) 1 (ints [3])) ∧
    (∀ op ∈ [0x54, 0x55], ∀ a b : Fin 8, a ≠ 0 → b ≠ 0 → let s := fibreOf op 0 [(0, bareOf a), (1, bareOf b)] .reset
     FibreReady s op 0 ∧ StopAt s (at_ 0) 0 (bareOf a) ∧ StopAt s (at_ 0) 1 (bareOf b)) ∧
    (∀ c ∈ [(0x50, 0, [0]), (0x51, 0, [0]), (0x52, 0, [0]), (0x52, 1, [0, 1]), (0x54, 0, [0, 1]), (0x55, 0, [0, 1]), (0x56, 0, [0, 1])], ∀ k : Fin 8, k ≠ 0 →
     let s := fibreOf c.1 c.2.1 (closed k) .reset
     FibreReady s c.1 c.2.1 ∧ Stops s (at_ 0) c.2.2 k) := by
  simp only [FibreReady, cellAt_iff, mayFire_iff, valueAt_iff, stopAt_iff, stops_iff, rises_iff, free_iff]
  refine ⟨?_, ?_, ?_, ?_⟩ <;> decide +kernel

/-- A router of an opcode and RMOD at site 0. -/
def routerOf (op mod : Nat) (l : List (Nat × Token)) (up : SitePlane → SitePlane := id) : State := fabric [(0, up (router (frame op mod) l))]

/-- What the clauses about a router ask of it. -/
def RouterReady (s : State) (op mod : Nat) : Prop := RouterAt s 0 (at_ 0) (frame op mod) op ∧ (∀ o ∈ [1, 2], Free s 0 (at_ 0) o)

/-- A control token that is true, or false. -/
def control (b : Bool) : Token := value [if b then 1 else 0]

/-- R195-R202: values and a closing at each router, both controls, both turns, one input of JOIN empty, a skip request at ROUTE. -/
theorem witness_RoutersMoveTokens :
    (∀ m ∈ [0, 1], ∀ k ∈ [(0 : Fin 8), 1, 7], ∀ b : Bool, let s := routerOf 1 m [(3, bareOf k)] fun x => { x with rout := { Half.reset with skip := b } }
     RouterReady s 1 m ∧ (s.site (at_ 0)).head 3 = some (bareOf k) ∧ (bareOf k).err = false ∧ (s.site (at_ 0)).rout.skip = b) ∧
    (∀ b : Bool, let s := routerOf 2 0 [(3, value [7]), (5, control b)]
     let u := routerOf 3 0 [(3, value [7]), (4, value [8]), (5, control b)]
     RouterReady s 2 0 ∧ ValueAt s (at_ 0) 3 (value [7]) ∧ ValueAt s (at_ 0) 5 (control b) ∧ (Picks (frame 2 0) (control b) ↔ b = true) ∧
     RouterReady u 3 0 ∧ ValueAt u (at_ 0) 5 (control b) ∧ NoErrors u (at_ 0) [3, 4] ∧ (Picks (frame 3 0) (control b) ↔ b = true) ∧
     ValueAt u (at_ 0) 3 (value [7]) ∧ ValueAt u (at_ 0) 4 (value [8])) ∧
    (∀ op ∈ [2, 3, 4, 7, 8], ∀ k ∈ [(1 : Fin 8), 7], let s := routerOf op 0 ([3, 4, 5].map fun p => (p, bareOf k))
     RouterReady s op 0 ∧ StopAt s (at_ 0) 3 (bareOf k) ∧ StopAt s (at_ 0) 4 (bareOf k) ∧ StopAt s (at_ 0) 5 (bareOf k) ∧ NoErrors s (at_ 0) [3, 4]) ∧
    (∀ op ∈ [4, 7, 8], ∀ b : Bool, let s := routerOf op 0 [(3, value [7]), (4, value [8])] fun x => { x with router := { Router.reset with turn := b } }
     RouterReady s op 0 ∧ ValueAt s (at_ 0) 3 (value [7]) ∧ ValueAt s (at_ 0) 4 (value [8]) ∧ NoErrors s (at_ 0) [3, 4] ∧ (s.site (at_ 0)).router.turn = b) ∧
    (let s := routerOf 4 0 [(3, value [7])]
     RouterReady s 4 0 ∧ NoErrors s (at_ 0) [3, 4] ∧ ValueAt s (at_ 0) 3 (value [7]) ∧ ∀ q, ¬ValueAt s (at_ 0) 4 q) ∧
    (let s := routerOf 4 0 [(4, value [8])]
     RouterReady s 4 0 ∧ NoErrors s (at_ 0) [3, 4] ∧ ValueAt s (at_ 0) 4 (value [8]) ∧ ∀ q, ¬ValueAt s (at_ 0) 3 q) := by
  have one : ∀ q, ¬ValueAt (routerOf 4 0 [(3, value [7])]) (at_ 0) 4 q := not_valueAt (by decide +kernel)
  have two : ∀ q, ¬ValueAt (routerOf 4 0 [(4, value [8])]) (at_ 0) 3 q := not_valueAt (by decide +kernel)
  refine ⟨?_, ?_, ?_, ?_, and_assoc.mp (and_assoc.mp ⟨?_, one⟩), and_assoc.mp (and_assoc.mp ⟨?_, two⟩)⟩
  all_goals
    simp only [RouterReady, routerAt_iff, mayFire_iff, valueAt_iff, stopAt_iff, noErrors_iff, Picks, free_iff]
    decide +kernel

/-- R203-R206: CARRY at its control, at its limit, closing and closed; INVAR in each of its cases; DISCARD with and without XEN; an error token at each
input of each router, and closings of two kinds. -/
theorem witness_RoutersLoop :
    (∀ b : Bool, let s := routerOf 5 2 [(4, value [8]), (5, control b)] fun x => { x with router := { Router.reset with occ := 1 } }
     RouterReady s 5 2 ∧ NoErrors s (at_ 0) [3, 4, 5] ∧ ValueAt s (at_ 0) 5 (control b) ∧ ValueAt s (at_ 0) 4 (value [8]) ∧ (Picks (frame 5 2) (control b) ↔ b = true)) ∧
    (∀ k ∈ [(0 : Fin 8), 1, 7], let s := routerOf 5 2 [(3, bareOf k)] fun x => { x with router := { Router.reset with occ := if k = 0 then 1 else 0 } }
     RouterReady s 5 2 ∧ NoErrors s (at_ 0) [3, 4, 5] ∧ (s.site (at_ 0)).head 5 = none ∧ (s.site (at_ 0)).router.closing = false ∧ (s.site (at_ 0)).head 3 = some (bareOf k) ∧
     (s.site (at_ 0)).router.occ = (if k = 0 then 1 else 0) ∧ 1 < (modOf (frame 5 2)).toNat % 256) ∧
    (∀ k ∈ [(1 : Fin 8), 7], let s := routerOf 5 2 [(4, bareOf k), (5, bareOf k)] fun x => { x with router := { Router.reset with closing := true } }
     RouterReady s 5 2 ∧ NoErrors s (at_ 0) [3, 4, 5] ∧ StopAt s (at_ 0) 5 (bareOf k) ∧ (s.site (at_ 0)).router.closing = true ∧ StopAt s (at_ 0) 4 (bareOf k)) ∧
    (∀ k : Fin 8, let s := routerOf 6 2 [(3, value [7]), (5, bareOf k)]
     let u := routerOf 6 2 [(3, bareOf k), (5, bareOf k)]
     RouterReady s 6 2 ∧ NoErrors s (at_ 0) [3, 5] ∧ (s.site (at_ 0)).head 5 = some (bareOf k) ∧ ValueAt s (at_ 0) 3 (value [7]) ∧ (s.site (at_ 0)).router.half = 0 ∧
     (modOf (frame 6 2)).toNat % 8 = 2 ∧ RouterReady u 6 2 ∧ NoErrors u (at_ 0) [3, 5] ∧ (u.site (at_ 0)).head 3 = some (bareOf k) ∧
     (u.site (at_ 0)).head 5 = some (bareOf k)) ∧
    (∀ m ∈ [0, 1], ∀ k ∈ [value [7], errToken, bareOf 7], let s := routerOf 9 m [(3, k)]
     RouterReady s 9 m ∧ (s.site (at_ 0)).head 3 = some k ∧ (modOf (frame 9 m)).getLsbD 0 = decide (m = 1)) ∧
    (∀ c ∈ [(1, [3], 1), (2, [3, 5], 2), (3, [3, 4, 5], 1), (4, [3, 4], 1), (5, [3, 4, 5], 1), (6, [3, 5], 1), (7, [3], 1), (8, [3, 4], 1)], ∀ p ∈ c.2.1,
     let s := routerOf c.1 2 [(p, errToken)]
     RouterReady s c.1 2 ∧ (s.site (at_ 0)).head p = some errToken ∧ errToken.err = true ∧ ∀ q ∈ c.2.1, q < p → NoErrors s (at_ 0) [q]) ∧
    (∀ op ∈ [2, 4, 8], let s := routerOf op 0 [(3, bareOf 1), (4, bareOf 7), (5, bareOf 7)]
     RouterReady s op 0 ∧ StopAt s (at_ 0) 5 (bareOf 7) ∧ StopAt s (at_ 0) 4 (bareOf 7) ∧ StopAt s (at_ 0) 3 (bareOf 1)) := by
  simp only [RouterReady, routerAt_iff, mayFire_iff, valueAt_iff, stopAt_iff, noErrors_iff, Picks, free_iff]
  refine ⟨?_, ?_, ?_, ?_, ?_, ?_, ?_⟩ <;> decide +kernel

/-- A tile frame: one page of 64 bytes for each unit of a stage, from byte 64 on. -/
def tileFrame (op depth buf low : Nat) : FrameBits := BitVec.ofNat 256 (op * 2 ^ 232 + depth * 2 ^ 228 + buf * 2 ^ 216 + 1 * 2 ^ 206 + low)

/-- A tile element at site 2 with a ring. -/
def tileOf (f : FrameBits) (l : List (Nat × Token)) (t : Tile := .reset) : State := fabric [(2, { tile f l with tile := t })]

/-- A tile element at site 2 whose port B has a route. -/
def ported (f : FrameBits) (l : List (Nat × Token)) (t : Tile) : State :=
  fabric [(2, { tile f l with tile := t, switch := some (BitVec.ofNat 256 (2 ^ 138)) })]

/-- R248, R303-R308: accesses at both ends of the extent and outside it; each state of the stages, its own and another's; an SPFIFO with
and without a port. -/
theorem witness_Tiles :
    (∀ p ∈ tileAccesses, ∀ n ∈ [(64 : Int), 64 + 256 - 4, 60, 66, 64 + 256],
     let f := tileFrame p.2.1 2 2 0
     let s := tileOf f [(0, ints [n]), (1, value [3]), (2, value [4])]
     TileAt s 0 (at_ 2) f p.2.1 ∧ Free s 0 (at_ 2) 0 ∧ ValueAt s (at_ 2) 0 (ints [n]) ∧ ValueAt s (at_ 2) 1 (value [3]) ∧ ValueAt s (at_ 2) 2 (value [4]) ∧
     s.badWords (at_ 2) = [] ∧ p.2.2.foldl (fun m q => m &&& ((if q = 0 then ints [n] else if q = 1 then value [3] else value [4]).mask)) 0xFFFF = 1 ∧
     (tileBase f ≤ int (ints [n]) 0 ∧ int (ints [n]) 0 < tileBase f + tileDepth f * tileBuf f ∧ int (ints [n]) 0 % (if tileSlot f then 8 else 4) = 0 ↔ n = 64 ∨ n = 316)) ∧
    (∀ c ∈ [((0 : Byte), 0), (0x22, 0), (0x22, 128)],
     let f := tileFrame 3 2 4 0
     let s := tileOf f [(0, value [7])] ⟨[(0, c.1)], 0, 0, c.2⟩
     TileAt s 0 (at_ 2) f 3 ∧ Free s 0 (at_ 2) 0 ∧ tileDrains f = false ∧ ValueAt s (at_ 2) 0 (value [7]) ∧ (s.site (at_ 2)).tile.ring.get 0 0 = c.1 ∧
     (s.site (at_ 2)).tile.pos = c.2 ∧ (s.site (at_ 2)).tile.pp = 0 ∧ c.2 + 128 ≤ tileBuf f ∧ 0x20 + (at_ 2).site.val = 0x22) ∧
    (let f := tileFrame 3 2 4 (2 ^ 195)
     let s := tileOf f [(0, bareOf 1)] ⟨[(0, 0x22)], 0, 0, 128⟩
     TileAt s 0 (at_ 2) f 3 ∧ Free s 0 (at_ 2) 0 ∧ tileDrains f = false ∧ StopAt s (at_ 2) 0 (bareOf 1) ∧ tileCen f = false ∧ (bareOf 1).kind ≠ 7 ∧
     (bareOf 1).kind.val < rlvlOf f + 1 ∧ (s.site (at_ 2)).tile.ring.get 0 (s.site (at_ 2)).tile.pp = 0x22) ∧
    (let f := tileFrame 3 2 2 2
     let s := tileOf f [(0, value [7])] ⟨[(0, 0x80)], 1, 0, 0⟩
     let u := tileOf f [] ⟨[(0, 0xC2)], 1, 0, 1⟩
     TileAt s 0 (at_ 2) f 3 ∧ Free s 0 (at_ 2) 0 ∧ tileDrains f = true ∧ ValueAt s (at_ 2) 0 (value [7]) ∧ (s.site (at_ 2)).tile.ring.get 0 (s.site (at_ 2)).tile.cp = 0x80 ∧
     (s.site (at_ 2)).tile.pos = 0 ∧ s.badWords (at_ 2) = [] ∧ 0 < tileBuf f ∧ TileAt u 0 (at_ 2) f 3 ∧ Free u 0 (at_ 2) 0 ∧ (u.site (at_ 2)).tile.ring.get 0 (u.site (at_ 2)).tile.cp = 0xC2 ∧
     tileBuf f ≤ 128 * (u.site (at_ 2)).tile.pos) ∧
    (let f := tileFrame 3 2 4 2
     let s := tileOf f [] ⟨[(0, 0xC2)], 1, 0, 1⟩
     TileAt s 0 (at_ 2) f 3 ∧ Free s 0 (at_ 2) 0 ∧ tileDrains f = true ∧ (s.site (at_ 2)).tile.pos = 1 ∧ s.badWords (at_ 2) = [] ∧ 128 * 1 < tileBuf f) ∧
    (∀ d : Bool, let f := tileFrame 3 2 2 (2 ^ 195 + if d then 2 else 0)
     let s := tileOf f [(0, bareOf 1)] ⟨[(0, 0xC5)], 0, 0, 128⟩
     TileAt s 0 (at_ 2) f 3 ∧ Free s 0 (at_ 2) 0 ∧ tileDrains f = d ∧ StopAt s (at_ 2) 0 (bareOf 1) ∧ (bareOf 1).kind.val < rlvlOf f + 1 ∧ (s.site (at_ 2)).tile.pos = 128 ∧
     tileBuf f ≤ 128 * 128 ∧ (s.site (at_ 2)).tile.ring.get 0 (s.site (at_ 2)).tile.pp ≠ 0x22 ∧ (s.site (at_ 2)).tile.ring.get 0 (s.site (at_ 2)).tile.cp ≠ 0xC2) ∧
    (let f := tileFrame 3 2 2 (2 ^ 195)
     let s := tileOf f [(0, bareOf 1)]
     TileAt s 0 (at_ 2) f 3 ∧ Free s 0 (at_ 2) 0 ∧ tileDrains f = false ∧ StopAt s (at_ 2) 0 (bareOf 1) ∧ (s.site (at_ 2)).tile.pos = 0) ∧
    (let f := tileFrame 4 2 2 0
     TileAt (tileOf f [(0, value [7])]) 0 (at_ 2) f 4 ∧ ((tileOf f [(0, value [7])]).site (at_ 2)).portless = true) ∧
    (let f := tileFrame 4 2 2 0
     let s := ported f [(0, value [7])] .reset
     let u := ported f [] ⟨[(0, 0x80)], 1, 0, 0⟩
     (s.site (at_ 2)).portless = false ∧ (u.site (at_ 2)).portless = false ∧ TileAt s 0 (at_ 2) f 4 ∧ (s.site (at_ 2)).head 0 = some (value [7]) ∧ (s.site (at_ 2)).tile.ring.get 0 (s.site (at_ 2)).tile.pp = 0 ∧
     (s.site (at_ 2)).tile.ring.get 0 (s.site (at_ 2)).tile.cp ≠ 0x80 ∧ TileAt u 0 (at_ 2) f 4 ∧ (u.site (at_ 2)).head 0 = none ∧
     (u.site (at_ 2)).tile.ring.get 0 (u.site (at_ 2)).tile.cp = 0x80 ∧ Free u 0 (at_ 2) 0 ∧ u.badWords (at_ 2) = [] ∧ (value [7]).lanes.length = 16) := by
  simp only [tileAt_iff, mayFire_iff, valueAt_iff, stopAt_iff, free_iff]
  refine ⟨?_, ?_, ?_, ?_, ?_, ?_, ?_, ?_, ?_⟩ <;> decide +kernel

/-- A matrix node at site 5 with a frame, heads and its state. -/
def nodeOf (f : FrameBits) (l : List (Nat × Token)) (q : Matrix) : State := fabric [(5, { site f l with matrix := q })]

/-- R364-R368: a group due, a buffer to empty, a start with and without INIT, at the first and the last token of the shape; MXCFG at each command, at a
stop, at an unknown command; a count run out. -/
theorem witness_MatrixGroups :
    (∀ op ∈ [0x40, 0x41], ∀ q ∈ [{ Matrix.reset with due := true }, { Matrix.reset with buf := [bareOf 1] }, Matrix.reset],
     let s := nodeOf (frame op 0) [] q
     CellAt s 0 (at_ 5) (frame op 0) op ∧ Free s 0 (at_ 5) 0 ∧ (s.site (at_ 5)).matrix = q ∧ mxInit (frame op 0) = false ∧ q.stopped = false ∧
     (s.planeOf (at_ 5)).page ∈ (s.graph 0).running) ∧
    (∀ op ∈ [0x40, 0x41], let s := fabricOf { graph0 with running := [] } [(5, { site (frame op 0) [] with matrix := Matrix.reset })]
     CellAt s 0 (at_ 5) (frame op 0) op ∧ (s.site (at_ 5)).matrix = .reset ∧ (s.planeOf (at_ 5)).page ∉ (s.graph 0).running) ∧
    (∀ op ∈ [0x40, 0x41], ∀ c ∈ [(0, value [7]), (1, value [7]), (92, bareOf 1), (94, value [7]), (95, bareOf 2)],
     let s := nodeOf (frame op 0x200) [(2, c.2)] { Matrix.reset with load := c.1 }
     CellAt s 0 (at_ 5) (frame op 0x200) op ∧ mxInit (frame op 0x200) = true ∧ (s.site (at_ 5)).matrix = { Matrix.reset with load := c.1 } ∧ c.1 ≤ 95 ∧
     (s.site (at_ 5)).head 2 = some c.2 ∧ c.2.err = false ∧ (if c.1 % 3 < 2 then c.2.kind = 0 else c.2.kind = if c.1 / 3 < 31 then 1 else 2)) ∧
    (∀ op ∈ [0x40, 0x41, 0x44], let s := nodeOf (frame op 0) [] { Matrix.reset with expire := true }
     CellAt s 0 (at_ 5) (frame op 0) op ∧ Free s 0 (at_ 5) 0 ∧ (s.site (at_ 5)).matrix = { Matrix.reset with expire := true }) ∧
    (let s := nodeOf (frame 0x44 0) [] { Matrix.reset with buf := [bareOf 1] }
     CellAt s 0 (at_ 5) (frame 0x44 0) 0x44 ∧ Free s 0 (at_ 5) 0 ∧ (s.site (at_ 5)).matrix.buf = bareOf 1 :: []) ∧
    (let f := frame 0x44 0 + BitVec.ofNat 256 (2 ^ 195)
     let s := nodeOf f [(0, bareOf 1)] .reset
     CellAt s 0 (at_ 5) f 0x44 ∧ Free s 0 (at_ 5) 0 ∧ (s.site (at_ 5)).matrix = .reset ∧ StopAt s (at_ 5) 0 (bareOf 1) ∧ (bareOf 1).kind ≠ 7 ∧
     (bareOf 1).kind.val < rlvlOf f + 1) ∧
    (∀ c ∈ [(0x3F, 1), (0x40, 0), (0x40, 3), (0x41, 65536), (0x41, 65535), (0x42, 0), (0x42, 1), (0x43, 0), (0x44, 0x2000), (0x45, 0)],
     let a := value [BitVec.ofNat 40 c.1, BitVec.ofNat 40 c.2]
     let s := fabric [(5, { site (frame 0x44 0) [(0, a)] with switch := some (BitVec.ofNat 256 (2 ^ 142)) })]
     (s.site (at_ 5)).routesC = true ∧ CellAt s 0 (at_ 5) (frame 0x44 0) 0x44 ∧ Free s 0 (at_ 5) 0 ∧ (s.site (at_ 5)).matrix = .reset ∧ ValueAt s (at_ 5) 0 a ∧ a.valid 0 = true ∧ a.valid 1 = true ∧
     (a.lane 0).toNat % 256 = c.1 ∧ ((a.lane 1).setWidth 32).toNat = c.2) := by
  simp only [cellAt_iff, mayFire_iff, valueAt_iff, stopAt_iff, free_iff]
  refine ⟨?_, ?_, ?_, ?_, ?_, ?_, ?_⟩ <;> decide +kernel

/-- A node that may do a step of an opcode, and its tiles with stages of so many units of 64 bytes. -/
def stepOf (op buf : Nat) : State :=
  let x : SitePlane := { tile (tileFrame 3 2 buf 0) [] with tile := ⟨[(0, 0x80)], 1, 0, 0⟩ }
  let q : Matrix := { Matrix.reset with begun := true, cmd := if op = 0x44 then some ⟨0x40, 65535⟩ else none }
  fabric [(2, x), (5, { site (frame op 0 + 1) [] with matrix := q }), (13, x)]

/-- R358-R369: a step of each opcode with stages that its operands fit, and with stages too short. -/
theorem witness_MatrixSteps :
    (∀ op ∈ [0x40, 0x41, 0x44], let s := stepOf op 64
     let f := frame op 0 + 1
     let fa := tileFrame 3 2 64 0
     CellAt s 0 (at_ 5) f op ∧ StepReady s (at_ 5) f fa fa op ∧ (s.planeOf (at_ 5)).page ∈ (s.graph 0).running ∧
     operandNeed (mxSparse op (s.site (at_ 5))) ((s.site (at_ 5)).matrix.aCode f) (nextStage s (at_ 2) fa) ≤ tileBuf fa ∧
     operandNeed (mxSparse op (s.site (at_ 5))) ((s.site (at_ 5)).matrix.bCode f) (nextStage s (at_ 13) fa) ≤ tileBuf fa) ∧
    (∀ op ∈ [0x40, 0x41, 0x44], let s := stepOf op 1
     let f := frame op 0 + 1
     let fa := tileFrame 3 2 1 0
     CellAt s 0 (at_ 5) f op ∧ StepReady s (at_ 5) f fa fa op ∧ (s.planeOf (at_ 5)).page ∈ (s.graph 0).running ∧
     tileBuf fa < operandNeed (mxSparse op (s.site (at_ 5))) ((s.site (at_ 5)).matrix.aCode f) (nextStage s (at_ 2) fa) ∧
     (s.site (at_ 5)).matrix.buf = [] ∧ Free s 0 (at_ 5) 0) := by
  simp only [cellAt_iff, mayFire_iff, stepReady_iff, free_iff]
  refine ⟨?_, ?_⟩ <;> decide +kernel

end Sys2Proof.Tests
end

