-- ==== Sys2Proof/Tests/WitnessScalar.lean ====
section
/-! SUPPORT. Witnesses for the statements about the control core: small states and operands that meet the hypotheses of each
clause together, at boundary values where a range has them. -/

namespace Sys2Proof.Tests

/- Each proof is checked before the next one begins, so that the checks do not wait for one another in memory. -/
set_option Elab.async false

open Machine Claims

/-- Core 0 with registers, at a pc. -/
def regsAt (pc : Word) (l : List (Nat × Word)) : State := machine { core0 with pc := pc, x := l }

/-- R69-R71: targets at the last word of the range and at the first beyond it. -/
theorem witness_BranchesAndJumps :
    (let s := regsAt 0xFFFFFFFFFFFF8 [(1, 5), (2, 5), (3, -1)]
     CanTrap s ∧ s.me.legal = true ∧ s.reg 1 = s.reg 2 ∧ s.reg 1 ≠ s.reg 3 ∧ (s.reg 3).toInt < (s.reg 1).toInt ∧
     (s.reg 1).toInt ≥ (s.reg 2).toInt ∧ (s.reg 1).toNat < (s.reg 3).toNat ∧ (s.reg 3).toNat ≥ (s.reg 1).toNat ∧
     (BitVec.ofInt 64 (s.me.pc.toNat + (1 : BitVec 14).toInt * 4)).toNat < 2 ^ 52 ∧
     2 ^ 52 ≤ (BitVec.ofInt 64 (s.me.pc.toNat + (2 : BitVec 14).toInt * 4)).toNat ∧
     (BitVec.ofInt 64 (s.me.pc.toNat + (1 : BitVec 20).toInt * 4)).toNat < 2 ^ 52 ∧
     2 ^ 52 ≤ (BitVec.ofInt 64 (s.me.pc.toNat + (2 : BitVec 20).toInt * 4)).toNat) ∧
    (let s := regs [(1, 0xFFFFFFFFFFFFF)]
     CanTrap s ∧ s.me.legal = true ∧ (BitVec.ofInt 64 ((s.reg 1).toInt + (0 : BitVec 12).toInt)).toNat < 2 ^ 52 ∧
     2 ^ 52 ≤ (BitVec.ofInt 64 ((s.reg 1).toInt + (1 : BitVec 12).toInt)).toNat) :=
  ⟨⟨⟨by decide +kernel, by decide +kernel⟩, by decide +kernel⟩, ⟨by decide +kernel, by decide +kernel⟩, by decide +kernel⟩

/-- R72, R73: a load and a store of each size at the end of a mapped page. -/
theorem witness_LoadsAndStores :
    let s := regs [(1, 0xFFF0), (2, 0x1122)]
    (.ldd, 8, false) ∈ loads ∧ s.span (address s 1 8) 8 .load = .ok (addrs 0xFFF8 8) s ∧ s.undeliverables (addrs 0xFFF8 8) = none ∧
    isBlock (addrs 0xFFF8 8) = false ∧ (.std, 8) ∈ stores ∧ s.span (address s 1 8) 8 .store = .ok (addrs 0xFFF8 8) s ∧
    s.storeRefused (addrs 0xFFF8 8) = none ∧ s.unstorable (addrs 0xFFF8 8) = none ∧ ∀ p ∈ addrs 0xFFF8 8, p < blockBase :=
  ⟨by simp [loads], by decide +kernel, by decide +kernel, by decide +kernel, by simp [stores], by decide +kernel⟩

/-- A page of the host window at virtual address 0. -/
def hostPage : TlbEntry := ⟨0, 0, 16, BitVec.ofNat 64 (hostBase + 0x1D)⟩

/-- R22, R59, R263: an access over the end of the range, one whose walk finds no table, one of an uncorrectable word, one of a
barrier's line, one of a designated range after LOCK. -/
theorem witness_AccessTraps :
    (let s := regs [(1, 0xFFFFFFFFFFFF9)]
     CanTrap s ∧ 2 ^ 52 < (address s 1 0).toNat + 8 ∧ ¬(2 ^ 52 < (address s 1 0xFFF).toNat + 8)) ∧
    (let s := regs [(1, 0x10000)]
     CanTrap s ∧ (address s 1 0).toNat + 8 ≤ 2 ^ 52 ∧ s.span (address s 1 0) 8 .load = .trap 0x27 0x10000 ∧
     s.span (address s 1 0) 8 .store = .trap 0x27 0x10000) ∧
    (let s := { regs [(1, 0x100)] with repair := { State.reset.repair with marks := [(0x20, 0xB1)] } }
     CanTrap s ∧ s.span (address s 1 7) 8 .load = .ok (addrs 0x107 8) s ∧ s.undeliverables (addrs 0x107 8) = some 0xB1) ∧
    (let s := { regs [(1, 0x39)] with mem := [(6, 1)], bartab := 1 }
     CanTrap s ∧ s.span (address s 1 0) 8 .store = .ok (addrs 0x39 8) s ∧ s.storeRefused (addrs 0x39 8) = some 0x2C) ∧
    (let s := { machine { core0 with dtlb := [hostPage] } with
        dv := { State.reset.dv with locked := true, ranges := [(0, (hostBase, 4096))] } }
     CanTrap s ∧ s.span (address s 0 0x7FF) 8 .store = .ok (addrs (hostBase + 0x7FF) 8) s ∧
     s.storeRefused (addrs (hostBase + 0x7FF) 8) = some 0xB4) :=
  ⟨⟨⟨by decide +kernel, by decide +kernel⟩, by decide +kernel⟩, ⟨⟨by decide +kernel, by decide +kernel⟩, by decide +kernel⟩,
   ⟨⟨by decide +kernel, by decide +kernel⟩, by decide +kernel⟩, ⟨⟨by decide +kernel, by decide +kernel⟩, by decide +kernel⟩,
   ⟨by decide +kernel, by decide +kernel⟩, by decide +kernel⟩

/-- R76, R77: a code that is a compute-cell opcode and one that is none, for CELL and CELL3; IMAD in CMOD. -/
theorem witness_CellInstructions :
    (let s := machine { core0 with cmod := 0x13000000 }
     isCellCode (0x10 : BitVec 8).toNat = true ∧ isCellCode s.me.cmodCop = true ∧ s.me.cmodCop = 0x13) ∧
    (let s := machine { core0 with cmod := 0x40000000 }
     CanTrap s ∧ isCellCode (0x25 : BitVec 8).toNat = false ∧ isCellCode s.me.cmodCop = false) :=
  ⟨by decide +kernel, ⟨by decide +kernel, by decide +kernel⟩, by decide +kernel⟩

/-- R324: an atomic at the last aligned words of a page, of both widths, its id not answered yet. -/
theorem witness_FencesAndAtomics :
    let s := { regs [(1, 0xFFF8)] with replies := [⟨2048, 0, 5, 1⟩] }
    (6 : BitVec 3).toNat ≤ 6 ∧ (s.reg 1).toNat + 8 ≤ 2 ^ 52 ∧ (s.reg 1).toNat % 8 = 0 ∧
    s.span (s.reg 1) 8 .store = .ok (addrs 0xFFF8 8) s ∧ s.span (s.reg 1) 4 .store = .ok (addrs 0xFFF8 4) s ∧
    s.storeRefused (addrs 0xFFF8 8) = none ∧ s.undeliverables (addrs 0xFFF8 8) = none ∧ (∀ p ∈ addrs 0xFFF8 8, p < blockBase) ∧
    s.losses.headD .no = .no ∧ ∀ r ∈ s.replies, ¬(r.src = s.cur.val ∧ r.id = s.me.atomId) := by
  decide +kernel

/-- An unanswered atomic of core 0 at address 0x100. -/
def atom (sends since : Nat) : Atomic :=
  { src := 0, id := 3, target := 4, addr := 0x100, pas := addrs 0x100 4, op := 0, wide := false, value := 2, expect := 0, rd := 7,
    sends := sends, since := since }

/-- Core 0 waits for it, at cycle n. -/
def atomState (sends since n : Nat) (l : List Loss) (rs : List Reply) : State :=
  { machine { core0 with wait := .atomic 3, atomId := 4 } with atoms := [atom sends since], cycle := n, losses := l, replies := rs }

/-- R322, R324: each trap of AMO; a lost request; a copy at a target that keeps the reply and at one that does not; a source before and
at 65,536 cycles, and after its eighth send. -/
theorem witness_AtomicDelivery :
    (let s := regs [(1, 0xFFFFFFFFFFFFD)]
     CanTrap s ∧ 2 ^ 52 < (s.reg 1).toNat + 4) ∧
    (let s := { regs [(1, 0x104), (2, 0x10000), (3, 8)] with mem := [(6, 1)], bartab := 1, losses := [.request, .no] }
     CanTrap s ∧ (s.reg 1).toNat + 8 ≤ 2 ^ 52 ∧ (s.reg 1).toNat % 8 ≠ 0 ∧ (s.reg 2).toNat + 8 ≤ 2 ^ 52 ∧ (s.reg 2).toNat % 8 = 0 ∧
     s.span (s.reg 2) 8 .store = .trap 0x27 0x10000 ∧
     s.span (s.reg 3) 8 .store = .ok (addrs 8 8) s ∧ s.storeRefused (addrs 8 8) = some 0x2C ∧
     s.span (s.reg 1) 4 .store = .ok (addrs 0x104 4) s ∧ s.storeRefused (addrs 0x104 4) = none ∧ s.undeliverables (addrs 0x104 4) = none ∧
     s.losses = .request :: [.no]) ∧
    (let s := atomState 1 0 65535 [] [⟨4, 0, 3, 9⟩]
     s.atomic 0 3 = some (atom 1 0) ∧ s.replies.find? (fun r => r.target = 4 && r.src = 0 && r.id = 3) = some ⟨4, 0, 3, 9⟩ ∧
     s.cycle < (atom 1 0).since + 65536) ∧
    (let s := atomState 7 0 65536 [.request] []
     s.atomic 0 3 = some (atom 7 0) ∧ s.replies.find? (fun r => r.target = 4 && r.src = 0 && r.id = 3) = none ∧
     isBlock (atom 7 0).pas = false ∧ (atom 7 0).since + 65536 ≤ s.cycle ∧ (atom 7 0).sends < 8 ∧ s.losses = .request :: []) ∧
    (let s := atomState 8 0 65536 [] []
     s.atomic 0 3 = some (atom 8 0) ∧ (atom 8 0).since + 65536 ≤ s.cycle ∧ 8 ≤ (atom 8 0).sends ∧ (s.core 0).legal = true ∧
     (s.core 0).status.getLsbD 4 = false) :=
  ⟨⟨⟨by decide +kernel, by decide +kernel⟩, by decide +kernel⟩, ⟨⟨by decide +kernel, by decide +kernel⟩, by decide +kernel⟩,
   by decide +kernel, by decide +kernel, by decide +kernel⟩

/-- n messages for CHRECV. -/
def msgs (n : Nat) : List (MsgUse × BitVec 63) := List.replicate n (.recv, 5)

/-- Core 1 with a queue and a handler entry at endpoint 9; core 0 names it in x1, a bad destination in x2, module 5 in x3. -/
def sendState (n : Nat) (h : Word) : State :=
  { regs [(1, 1), (2, 0x8000), (3, 0x4501)] with
    cores := [(0, { core0 with x := [(1, 1), (2, 0x8000), (3, 0x4501)], queues := [(9, msgs n)] }),
      (1, { core0 with queues := [(9, msgs n)], handlers := if h = 0 then [] else [(9, h)] })]
    block := { State.reset.block with modnum := 0x41 }, links := { State.reset.links with up := 1, peers := [5] } }

/-- R325-R327: 15 and 16 messages queued; unbound, enabled and not enabled entries; a number that is the own module's; bad and remote destinations; an empty endpoint. -/
theorem witness_Channels :
    (let s := sendState 16 0
     s.goodEndpoint (s.reg 1) = true ∧ (s.reg 1).getLsbD 14 = false ∧ (s.core 1).run ≠ .stopped ∧ 16 ≤ ((s.core 1).queue 9).length) ∧
    (let s := sendState 15 0
     CanTrap s ∧ ((s.core 1).queue 9).length < 16 ∧ (s.core 1).bound 9 = false ∧ s.goodEndpoint (s.reg 2) = false ∧
     s.goodEndpoint (s.reg 3) = true ∧ (s.reg 3).getLsbD 14 = true ∧ (s.reg 3).toNat / 256 % 64 ≠ s.modnum ∧
     s.me.queue 9 = (.recv, 5) :: msgs 14 ∧ ∀ p ∈ s.me.queue 8, p.1 ≠ .recv) ∧
    (let s := sendState 15 0x2003
     s.goodEndpoint 0x4101 = true ∧ (0x4101 : Word).getLsbD 14 = true ∧ (0x4101 : Word).toNat / 256 % 64 = s.modnum ∧ ((s.core 1).queue 9).length < 16 ∧ (s.core 1).bound 9 = true ∧ (s.core 1).enabled 9 = true) ∧
    (let s := sendState 15 0x2002
     ((s.core 1).queue 9).length < 16 ∧ (s.core 1).bound 9 = true ∧ (s.core 1).enabled 9 = false) :=
  ⟨by decide +kernel, ⟨⟨by decide +kernel, by decide +kernel⟩, by decide +kernel⟩, by decide +kernel, by decide +kernel⟩

/-- Barrier 3 of core 0, and core 1 waiting on it. -/
def barState (b : Barrier) : State :=
  { machine core0 with cores := [(0, { core0 with x := [(1, 3), (2, 1), (3, 65535), (4, 65536), (5, 0x100000003), (6, 0x200003), (7, 0x800100000003)],
                                                  barriers := if b = .free then [] else [(3, b)] }),
      (1, { core0 with wait := .barrier 3 1 9 })] }

/-- The invariant from its parts. -/
theorem inv_of {s : State} (h : legalModule s.cores s.mem s.astab s.bartab s.ctxtab = true) (n : s.dv.safe = none) : Inv s :=
  ⟨h, fun i e => by simp [n] at e⟩

/-- A hardware barrier reached by a name. -/
theorem barrierAt_of {s : State} {v : Word} {w : Bool} (h : s.goodBarrier v w = true) (n : v.getLsbD 20 = false) : BarrierAt s v w :=
  ⟨h, fun e => absurd (n.symm.trans e) (by decide), fun e => absurd (n.symm.trans e) (by decide), fun e => absurd (n.symm.trans e) (by decide)⟩

/-- R328, R329: counts 1, 65,535, 0 and 65,536; a barrier FREE, before and at the last arrival of its phase; targets reached and not; bad names;
a barrier of the table. -/
theorem witness_Barriers :
    (let s := barState ⟨true, 2, 0, 0⟩
     Inv s ∧ CanTrap s ∧ BarrierAt s (s.reg 1) false ∧ s.me.wait = .none ∧ 1 ≤ (s.reg 2).toNat ∧ (s.reg 3).toNat ≤ 65535 ∧ 65535 < (s.reg 4).toNat ∧
     (s.reg 0).toNat = 0 ∧ (s.getBar (barName (s.reg 1))).active = true ∧ (0 : BitVec 16).toNat + 1 < (2 : BitVec 16).toNat ∧
     s.goodBarrier (s.reg 6) false = false ∧ s.goodBarrier (s.reg 6) true = false) ∧
    (let s := barState ⟨true, 2, 1, 0⟩
     Inv s ∧ BarrierAt s (s.reg 1) false ∧ BarrierAt s (s.reg 5) true ∧ BarrierAt s (s.reg 7) true ∧
     (s.getBar (barName (s.reg 1))).arr.toNat + 1 = (s.getBar (barName (s.reg 1))).count.toNat ∧
     (s.getBar (barName (s.reg 5))).active = true ∧ 2 ^ 15 ≤ ((s.getBar (barName (s.reg 5))).gen - (1 : BitVec 16)).toNat ∧
     ((s.getBar (barName (s.reg 7))).gen - BitVec.ofNat 16 ((s.reg 7).toNat / 2 ^ 32)).toNat < 2 ^ 15) ∧
    (let s := barState .free
     Inv s ∧ CanTrap s ∧ BarrierAt s (s.reg 1) false ∧ BarrierAt s (s.reg 5) true ∧ (s.getBar (barName (s.reg 1))).active = false) ∧
    (let s := { regs [(1, 0x100000)] with bartab := 1, mem := [(0, 1), (6, 1)] }
     Inv s ∧ CanTrap s ∧ s.goodBarrier (s.reg 1) false = true ∧ (s.reg 0).toNat = 0 ∧ BarrierAt s (s.reg 1) false ∧ (s.getBar (barName (s.reg 1))).active = true) :=
  ⟨⟨inv_of (by decide +kernel) rfl, ⟨by decide +kernel, by decide +kernel⟩, barrierAt_of (by decide +kernel) (by decide +kernel), by decide +kernel⟩,
   ⟨inv_of (by decide +kernel) rfl, barrierAt_of (by decide +kernel) (by decide +kernel), barrierAt_of (by decide +kernel) (by decide +kernel),
    barrierAt_of (by decide +kernel) (by decide +kernel), by decide +kernel⟩,
   ⟨inv_of (by decide +kernel) rfl, ⟨by decide +kernel, by decide +kernel⟩, barrierAt_of (by decide +kernel) (by decide +kernel),
    barrierAt_of (by decide +kernel) (by decide +kernel), by decide +kernel⟩,
   inv_of (by decide +kernel) rfl, ⟨by decide +kernel, by decide +kernel⟩, by decide +kernel, by decide +kernel,
   ⟨by decide +kernel, fun _ => by decide +kernel, fun _ => by decide +kernel, fun _ => by decide +kernel⟩, by decide +kernel⟩

/-- A cause not yet delivered. -/
def cause : Pending := ⟨0x30, true, 5, [1, 2]⟩

/-- R23, R413-R419: a core that can trap; one in a handler; a cause with FREC set; a message behind one that is not enabled. -/
theorem witness_TrapsAndDeliveries :
    CanTrap (regs []) ∧
    (let s := machine { core0 with status := 0x14, pending := [cause] }
     s.me.status.getLsbD 4 = true ∧ (s.core 64).run ≠ .stopped) ∧
    (let s := machine { core0 with status := 5, frec := 0x3000, pending := [cause] }
     Writable s (s.core 0).frec.toNat cause.record.length ∧ (s.core 0).legal = true ∧ (s.core 0).takesDelivery = true ∧
     (s.core 0).pending = cause :: [] ∧ (s.core 0).frec ≠ 0) ∧
    (let s := machine { core0 with status := 5, dispatch := [4, 9], handlers := [(4, 0x3002), (9, 0x4003)], queues := [(9, [(.recv, 1), (.disp, 7)])] }
     (s.core 0).legal = true ∧ (s.core 0).takesDelivery = true ∧ (s.core 0).pending = [] ∧ (s.core 0).dispatch = [4] ++ 9 :: [] ∧ (s.core 0).bound 9 = true ∧
     (s.core 0).enabled 9 = true ∧ (∀ f ∈ [(4 : BitVec 6)], (s.core 0).bound f = false ∨ (s.core 0).enabled f = false) ∧
     (s.core 0).queue 9 = [(.recv, 1)] ++ (.disp, 7) :: [] ∧ ∀ p ∈ [((.recv, 1) : MsgUse × BitVec 63)], p.1 ≠ .disp) :=
  ⟨⟨by decide +kernel, by decide +kernel⟩, by decide +kernel, ⟨fun p h => by revert p h; decide +kernel, by decide +kernel⟩, by decide +kernel⟩

/-- R421, R422: with and without a delivery pending. -/
theorem witness_SystemInstructions :
    (let s := machine { core0 with dispatch := [9], handlers := [(9, 0x4003)] }
     s.me.legal = true ∧ s.me.status.getLsbD 2 = true ∧ ∃ f ∈ s.me.dispatch, (s.me.handler f).getLsbD 0 = true ∧ (s.me.handler f).getLsbD 1 = true) ∧
    (let s := machine { core0 with dispatch := [9], handlers := [(9, 0x4002)] }
     s.me.pending = [] ∧ ∀ f ∈ s.me.dispatch, (s.me.handler f).getLsbD 0 = false ∨ (s.me.handler f).getLsbD 1 = false) ∧
    (machine { core0 with pending := [cause] }).me.pending ≠ [] := by
  decide +kernel

/-- R15, R58: user mode; COREID in supervisor mode; the last control register. -/
theorem witness_Privilege :
    (let s := machine { core0 with status := 0 }
     CanTrap s ∧ s.me.status.getLsbD 2 = false ∧ (0x11 : BitVec 12).toNat < 0x12 ∧ (0x11 : BitVec 12).toNat ≠ 8) ∧
    CanTrap (machine core0) ∧ (7 : BitVec 12).toNat = 7 :=
  ⟨⟨⟨by decide +kernel, by decide +kernel⟩, by decide +kernel⟩, ⟨by decide +kernel, by decide +kernel⟩, by decide +kernel⟩

/-- R14, R15: a register of the table, the first number beyond it, supervisor mode. -/
theorem witness_ControlRegisters :
    let s := machine core0
    CanTrap s ∧ (0x11, s.ctxtab) ∈ controlRegisters s ∧ 0x12 ≤ (0x12 : BitVec 12).toNat ∧ s.me.status.getLsbD 2 = true :=
  ⟨⟨by decide +kernel, by decide +kernel⟩, by decide +kernel⟩

/-- R266: a core that waits for an invalidation. -/
theorem witness_ControlRegisterEffects :
    let s := machine { core0 with wait := .tinv 0x300 }
    (s.core 0).wait = .tinv 0x300 ∧ Inv s :=
  ⟨by decide +kernel, inv_of (by decide +kernel) rfl⟩

/-- R18, R57, R59: a core's turn with a word that decodes and one that does not, a pc at the last word of the range and beyond it, a page that is not
mapped, a page in no window, an uncorrectable word, a word stored over since the last FENCE. -/
theorem witness_StepRunsDecoded :
    let turn := fun (k : Core) => { machine k with agenda := [.core 0], mem := [(0x800, 0x41)] }
    (let s : State := turn { core0 with pc := 0x800 }
     let u : State := { s with agenda := [], cur := 0 }
     Fetches u.me ∧ s.agenda = .core 0 :: [] ∧ u.me.pc.toNat + 4 ≤ 2 ^ 52 ∧ u.translate u.me.pc.toNat .fetch = .ok 0x800 u ∧
     u.undeliverables (addrs 0x800 4) = none ∧ window 0x800 ≠ .block ∧ u.me.istale.get [] (u.key 0x800 / 4) = [] ∧
     (match decodeWord (wordAt u 0x800).toNat with | .ok j => decide (j = .add 1 0 0) | _ => false) = true) ∧
    (let s : State := turn { core0 with pc := 0x804, istale := [(0x201, [7])] }
     let u : State := { s with agenda := [], cur := 0 }
     Fetches u.me ∧ u.translate u.me.pc.toNat .fetch = .ok 0x804 u ∧ u.undeliverables (addrs 0x804 4) = none ∧
     u.me.istale.get [] (u.key 0x804 / 4) ≠ [] ∧ (match decodeWord (wordAt u 0x804).toNat with | .error _ => true | _ => false) = true) ∧
    (let s : State := turn { core0 with pc := 0xFFFFFFFFFFFFC }
     let u : State := { s with agenda := [], cur := 0 }
     Fetches u.me ∧ u.me.pc.toNat + 4 ≤ 2 ^ 52 ∧ u.translate u.me.pc.toNat .fetch = .fault 0x27) ∧
    (let s : State := turn { core0 with pc := 0x10000000000000 }
     let u : State := { s with agenda := [], cur := 0 }
     Fetches u.me ∧ 2 ^ 52 < u.me.pc.toNat + 4) ∧
    (let s : State := { turn { core0 with pc := 0x800, x := [(1, 7)], spoiled := [1] } with mem := [(0x800, 0x41), (0x801, 0x10), (0x802, 0x04)] }
     let u : State := { s with agenda := [], cur := 0 }
     Fetches u.me ∧ u.translate u.me.pc.toNat .fetch = .ok 0x800 u ∧ u.undeliverables (addrs 0x800 4) = none ∧ CanTrap u ∧
     (match decodeWord (wordAt u 0x800).toNat with | .ok j => decide (∃ r ∈ sourcesOf j, r ∈ u.me.spoiled) | _ => false) = true) ∧
    (let s : State := { turn { core0 with pc := 0x800 } with repair := { State.reset.repair with marks := [(0x100, 0xB1)] } }
     let u : State := { s with agenda := [], cur := 0 }
     Fetches u.me ∧ u.translate u.me.pc.toNat .fetch = .ok 0x800 u ∧ u.undeliverables (addrs 0x800 4) = some 0xB1) ∧
    (machine core0).agenda = [] ∧ ({ machine core0 with agenda := [.event .cycle] } : State).agenda = .event .cycle :: [] :=
  ⟨⟨⟨by decide +kernel, by decide +kernel, by decide +kernel⟩, by decide +kernel⟩, ⟨⟨by decide +kernel, by decide +kernel, by decide +kernel⟩, by decide +kernel⟩,
   ⟨⟨by decide +kernel, by decide +kernel, by decide +kernel⟩, by decide +kernel⟩, ⟨⟨by decide +kernel, by decide +kernel, by decide +kernel⟩, by decide +kernel⟩,
   ⟨⟨by decide +kernel, by decide +kernel, by decide +kernel⟩, by decide +kernel, by decide +kernel, ⟨by decide +kernel, by decide +kernel⟩, by decide +kernel⟩,
   ⟨⟨by decide +kernel, by decide +kernel, by decide +kernel⟩, by decide +kernel⟩, by decide +kernel, by decide +kernel⟩

/-- R48-R57: a well-formed instruction with its word, and a word that decodes. -/
theorem witness_EncodingRoundTrip :
    WellFormed (.amo 63 63 63 6 1 5) ∧ HasWord (.amo 63 63 63 6 1 5) 0x5EFFFFF1 ∧ 0x5EFFFFF1 < 2 ^ 32 ∧
    decodeWord 0x5EFFFFF1 = .ok (.amo 63 63 63 6 1 5) := ⟨(by decide +kernel : wfFailure _ = none), (by decide +kernel : encodeNat _ = some _), by decide +kernel, by rfl⟩

/-- The invariant holds, and a step gives a next state. -/
theorem witness_StepKeepsInvariant :
    let s := { machine { core0 with pc := 0x800, x := [(1, 7)] } with agenda := [.core 0], mem := [(0x800, 0x41)] }
    Inv s ∧ (match step s with | .next _ => true | _ => false) = true :=
  ⟨inv_of (by decide +kernel) rfl, by decide +kernel⟩

/-- R15, R58: user mode executes an instruction and stays in user mode. -/
theorem witness_UserModeConfined :
    let s := machine { core0 with status := 0, x := [(1, 7)] }
    HasWord (.add 2 1 1) 0x00041081 ∧ s.me.status.getLsbD 2 = false ∧
    gives (.add 2 1 1) s (fun t => !t.me.status.getLsbD 2) = true ∧ storesTo (.add 2 1 1) = false :=
  ⟨(by decide +kernel : encodeNat _ = some _), by decide +kernel⟩

end Sys2Proof.Tests
end

section
/-! SUPPORT. Values of the scalar instructions: sign-extended immediates as sums of integers, the halves of products, quotients
and remainders, shifts, counts of bits (03 R53; 04 R63-R68). -/

namespace Sys2Proof.Machine

open Claims

/-! ### Immediates (R62, R65, R67) -/

theorem imm12_eq_signed (i : BitVec 12) : imm12 i = signed i := rfl

/-- A word plus a sign-extended immediate is the sum of their signed values modulo 2^64. -/
theorem add_imm12 (x : Word) (i : BitVec 12) : x + imm12 i = BitVec.ofInt 64 (x.toInt + i.toInt) := by
  rw [BitVec.ofInt_add, BitVec.ofInt_toInt]; rfl

theorem imm12_toInt (i : BitVec 12) : (imm12 i).toInt = i.toInt := BitVec.toInt_signExtend_of_le (by decide)

theorem imm20u_eq (i : BitVec 20) : imm20u i = BitVec.ofInt 64 (i.toInt * 4096) := by
  have h : (i ++ (0 : BitVec 12)).toInt = i.toInt * 4096 := by
    rw [show (0 : BitVec 12) = 0#12 from rfl, BitVec.toInt_append_zero]; omega
  rw [← h]; rfl

/-- A word as an unsigned integer plus an offset, modulo 2^64. -/
theorem ofInt_toNat_add (v : Word) (n : Int) : BitVec.ofInt 64 (v.toNat + n) = v + BitVec.ofInt 64 n := by
  rw [BitVec.ofInt_add, BitVec.ofInt_natCast, BitVec.ofNat_toNat, BitVec.setWidth_eq]

theorem off20_eq (i : BitVec 20) : off20 i = BitVec.ofInt 64 (i.toInt * 4) := by
  rw [BitVec.ofInt_mul]; rfl

theorem off14_eq (i : BitVec 14) : off14 i = BitVec.ofInt 64 (i.toInt * 4) := by
  rw [BitVec.ofInt_mul]; rfl

/-! ### Sums and products (R63) -/

theorem add_eq_ofNat (x y : Word) : x + y = BitVec.ofNat 64 (x.toNat + y.toNat) := by
  rw [BitVec.ofNat_add, BitVec.ofNat_toNat, BitVec.ofNat_toNat, BitVec.setWidth_eq, BitVec.setWidth_eq]

theorem sub_eq_ofInt (x y : Word) : x - y = BitVec.ofInt 64 ((x.toNat : Int) - y.toNat) := by
  apply BitVec.eq_of_toNat_eq
  rw [BitVec.toNat_sub, BitVec.toNat_ofInt]
  omega

theorem mul_eq_ofNat (x y : Word) : x * y = BitVec.ofNat 64 (x.toNat * y.toNat) := by
  rw [BitVec.ofNat_mul, BitVec.ofNat_toNat, BitVec.ofNat_toNat, BitVec.setWidth_eq, BitVec.setWidth_eq]

/-- The upper half of a 128-bit word is its signed value divided by 2^64. -/
theorem extractLsb'_eq_toInt_div (p : BitVec 128) : p.extractLsb' 64 64 = BitVec.ofInt 64 (p.toInt / 2 ^ 64) := by
  apply BitVec.eq_of_toNat_eq
  have := p.isLt
  rw [BitVec.extractLsb'_toNat, BitVec.toNat_ofInt, BitVec.toInt_eq_toNat_cond, Nat.shiftRight_eq_div_pow]
  split <;> omega

/-- The exact signed product of two words fits in 128 bits. -/
theorem signExtend_mul_toInt (x y : Word) : (x.signExtend 128 * y.signExtend 128).toInt = x.toInt * y.toInt := by
  have hi := BitVec.toInt_mul_toInt_le (x := x) (y := y)
  have lo := BitVec.le_toInt_mul_toInt (x := x) (y := y)
  rw [BitVec.toInt_mul, BitVec.toInt_signExtend_of_le (by decide), BitVec.toInt_signExtend_of_le (by decide)]
  exact Int.bmod_eq_of_le (by omega) (by omega)

theorem mulHigh_eq (x y : Word) : mulHigh x y = (x.signExtend 128 * y.signExtend 128).extractLsb' 64 64 := by
  rw [extractLsb'_eq_toInt_div, signExtend_mul_toInt]; rfl

theorem mulHighU_eq (x y : Word) : mulHighU x y = (x.setWidth 128 * y.setWidth 128).extractLsb' 64 64 := by
  have small : x.toNat * y.toNat < 2 ^ 128 := BitVec.toNat_mul_toNat_lt
  apply BitVec.eq_of_toNat_eq
  rw [BitVec.extractLsb'_toNat, BitVec.toNat_mul, BitVec.toNat_setWidth_of_le (by decide), BitVec.toNat_setWidth_of_le (by decide),
    Nat.mod_eq_of_lt small, Nat.shiftRight_eq_div_pow]
  rfl

/-! ### Shifts, comparisons (R63, R66) -/

theorem shiftLeft_eq_ofNat (x : Word) (n : Nat) : x <<< n = BitVec.ofNat 64 (x.toNat * 2 ^ n) := by
  apply BitVec.eq_of_toNat_eq
  rw [BitVec.toNat_shiftLeft, BitVec.toNat_ofNat, Nat.shiftLeft_eq]

theorem ushiftRight_eq_ofNat (x : Word) (n : Nat) : x >>> n = BitVec.ofNat 64 (x.toNat / 2 ^ n) := by
  apply BitVec.eq_of_toNat_eq
  rw [BitVec.toNat_ushiftRight, BitVec.toNat_ofNat, Nat.shiftRight_eq_div_pow,
    Nat.mod_eq_of_lt (Nat.lt_of_le_of_lt (Nat.div_le_self _ _) x.isLt)]

/-- The arithmetic shift, by the sign bit. -/
theorem sshiftRight_eq_ite (x : Word) (n : Nat) : x.sshiftRight n = if x.getLsbD 63 then ~~~(~~~x >>> n) else x >>> n := by
  have sign : x.msb = x.getLsbD 63 := BitVec.msb_eq_getLsbD_last x
  cases h : x.getLsbD 63 with
  | false => exact BitVec.sshiftRight_eq_of_msb_false (sign.trans h)
  | true => exact BitVec.sshiftRight_eq_of_msb_true (sign.trans h)

theorem flag_decide (p : Prop) [Decidable p] : flag (decide p) = one p := by
  by_cases h : p <;> simp [flag, one, h]

/-! ### Division (R64) -/

/-- The operands of the row of R64 whose quotient 2^63 is no signed value. -/
def DivOverflows (x y : Word) : Prop := x = 0x8000000000000000 ∧ y = 0xFFFFFFFFFFFFFFFF

theorem divS_zero (x : Word) : divS x 0 = 0xFFFFFFFFFFFFFFFF := rfl
theorem remS_zero (x : Word) : remS x 0 = x := rfl
theorem divU_zero (x : Word) : divU x 0 = 0xFFFFFFFFFFFFFFFF := rfl
theorem remU_zero (x : Word) : remU x 0 = x := rfl

variable {x y : Word}

theorem divS_overflow (h : DivOverflows x y) : divS x y = 0x8000000000000000 := by
  obtain ⟨rfl, rfl⟩ := h; rfl

theorem remS_overflow (h : DivOverflows x y) : remS x y = 0 := by
  obtain ⟨rfl, rfl⟩ := h; rfl

theorem divS_of_not_overflow (h0 : y ≠ 0) (h : ¬DivOverflows x y) : divS x y = BitVec.ofInt 64 (x.toInt.tdiv y.toInt) :=
  (if_neg h0).trans (if_neg h)

theorem remS_of_not_overflow (h0 : y ≠ 0) (h : ¬DivOverflows x y) : remS x y = BitVec.ofInt 64 (x.toInt.tmod y.toInt) :=
  (if_neg h0).trans (if_neg h)

/-- Only the overflowing quotient leaves the signed range. -/
theorem divS_toInt (h0 : y ≠ 0) (h : ¬DivOverflows x y) : (divS x y).toInt = x.toInt.tdiv y.toInt := by
  rw [divS_of_not_overflow h0 h, BitVec.toInt_ofInt, ← BitVec.toInt_sdiv]
  exact BitVec.toInt_sdiv_of_ne_or_ne x y (Decidable.not_and_iff_not_or_not.1 h)

theorem remS_toInt (h0 : y ≠ 0) (h : ¬DivOverflows x y) : (remS x y).toInt = x.toInt.tmod y.toInt := by
  rw [remS_of_not_overflow h0 h, ← BitVec.toInt_srem, BitVec.ofInt_toInt]

theorem divU_toNat (h0 : y ≠ 0) : (divU x y).toNat = x.toNat / y.toNat := by
  unfold divU
  rw [if_neg h0, BitVec.toNat_ofNat, Nat.mod_eq_of_lt (Nat.lt_of_le_of_lt (Nat.div_le_self _ _) x.isLt)]

theorem remU_toNat (h0 : y ≠ 0) : (remU x y).toNat = x.toNat % y.toNat := by
  unfold remU
  rw [if_neg h0, BitVec.toNat_ofNat, Nat.mod_eq_of_lt (Nat.lt_of_le_of_lt (Nat.mod_le _ _) x.isLt)]

/-- Dividend = quotient × divisor + remainder, in every row of R64. -/
theorem divS_mul_add_remS (x y : Word) : divS x y * y + remS x y = x := by
  by_cases h0 : y = 0
  · rw [h0, remS_zero]; simp only [BitVec.ofNat_eq_ofNat, BitVec.mul_zero, BitVec.zero_add]
  by_cases h : DivOverflows x y
  · rw [divS_overflow h, remS_overflow h, h.1, h.2]; decide
  calc divS x y * y + remS x y
      = BitVec.ofInt 64 (x.toInt.tdiv y.toInt * y.toInt + x.toInt.tmod y.toInt) := by
        rw [divS_of_not_overflow h0 h, remS_of_not_overflow h0 h, BitVec.ofInt_add, BitVec.ofInt_mul, BitVec.ofInt_toInt]
    _ = x := by rw [Int.mul_comm, Int.mul_tdiv_add_tmod, BitVec.ofInt_toInt]

theorem divU_mul_add_remU (x y : Word) : divU x y * y + remU x y = x := by
  by_cases h0 : y = 0
  · rw [h0, remU_zero]; simp only [BitVec.ofNat_eq_ofNat, BitVec.mul_zero, BitVec.zero_add]
  apply BitVec.eq_of_toNat_eq
  rw [BitVec.toNat_add, BitVec.toNat_mul, divU_toNat h0, remU_toNat h0, Nat.mod_add_mod, Nat.mul_comm, Nat.div_add_mod]
  exact Nat.mod_eq_of_lt x.isLt

/-! ### Counts of bits (R68) -/

theorem leadingZeros_eq_findIdx (x : Word) : leadingZeros x = (List.range 64).findIdx fun i => x.getLsbD (63 - i) := by
  have le : (List.range 64).findIdx (fun i => x.getLsbD (63 - i)) ≤ 64 := by simpa using List.findIdx_le_length (xs := List.range 64)
  simp only [leadingZeros, List.takeWhile_eq_take_findIdx_not, Bool.not_not, List.length_take, List.length_range]
  exact Nat.min_eq_left le

theorem leadingZeros_le (x : Word) : leadingZeros x ≤ 64 := by
  rw [leadingZeros_eq_findIdx]; simpa using List.findIdx_le_length (xs := List.range 64)

/-- The counted bits are zero. -/
theorem getLsbD_of_lt_leadingZeros {i : Nat} (h : i < leadingZeros x) : x.getLsbD (63 - i) = false := by
  rw [leadingZeros_eq_findIdx] at h
  simpa using List.not_of_lt_findIdx h

/-- The bit after them is one. -/
theorem getLsbD_leadingZeros (h : leadingZeros x < 64) : x.getLsbD (63 - leadingZeros x) = true := by
  rw [leadingZeros_eq_findIdx] at h ⊢
  simpa using List.findIdx_getElem (p := fun i => x.getLsbD (63 - i)) (w := Nat.lt_of_lt_of_eq h List.length_range.symm)

theorem toNat_lt_of_leadingZeros (x : Word) : x.toNat < 2 ^ (64 - leadingZeros x) := by
  apply Nat.lt_pow_two_of_testBit
  intro i hi
  rw [BitVec.testBit_toNat]
  by_cases h : i < 64
  · have := getLsbD_of_lt_leadingZeros (x := x) (i := 63 - i) (by omega)
    rwa [show 63 - (63 - i) = i by omega] at this
  · exact BitVec.getLsbD_of_ge x i (by omega)

theorem le_toNat_of_leadingZeros (h : leadingZeros x < 64) : 2 ^ (63 - leadingZeros x) ≤ x.toNat :=
  Nat.ge_two_pow_of_testBit (by rw [BitVec.testBit_toNat]; exact getLsbD_leadingZeros h)

theorem oneBits_eq_sum (x : Word) : oneBits x = ((List.range 64).map fun i => (x.getLsbD i).toNat).sum := by
  unfold oneBits
  induction List.range 64 with
  | nil => rfl
  | cons i l ih => cases h : x.getLsbD i <;> simp [h, ih, Nat.add_comm]

end Sys2Proof.Machine
end

section
/-! SUPPORT. The register and immediate operations write what the rules say (04 R63-R68). -/

namespace Sys2Proof.Machine

open Claims

/-- An instruction whose meaning is the register write with pc + 4 gives the value written. -/
theorem gives_wrote {i : Instr} {s : State} {d : Reg} {v w : Word} (h : exec i s = s.writeNext d v) (e : v = w) :
    Gives i s (Wrote s d w) := by
  obtain ⟨t, ht, wrote⟩ := s.writeNext_wrote d v
  exact ⟨t, h.trans ht, e ▸ wrote⟩

/-- Settles O1: each meaning is the shared register write, and its value is that of the rule. -/
theorem integerOperations : Obligations.IntegerOperations := by
  refine ⟨fun s d a b => ?_, fun s d a b => ?_, fun s d a i n => ?_, fun s d a i => ?_⟩
  · exact ⟨gives_wrote rfl (add_eq_ofNat _ _), gives_wrote rfl (sub_eq_ofInt _ _), gives_wrote rfl (mul_eq_ofNat _ _),
      gives_wrote rfl (mulHigh_eq _ _), gives_wrote rfl (mulHighU_eq _ _),
      gives_wrote rfl rfl, gives_wrote rfl rfl, gives_wrote rfl rfl,
      gives_wrote rfl (shiftLeft_eq_ofNat _ _), gives_wrote rfl (ushiftRight_eq_ofNat _ _), gives_wrote rfl (sshiftRight_eq_ite _ _),
      gives_wrote rfl (flag_decide _), gives_wrote rfl (flag_decide _), gives_wrote rfl rfl, gives_wrote rfl rfl⟩
  · exact ⟨_, _, _, _, gives_wrote rfl rfl, gives_wrote rfl rfl, gives_wrote rfl rfl, gives_wrote rfl rfl,
      fun h => ⟨h ▸ divS_zero _, h ▸ remS_zero _, h ▸ divU_zero _, h ▸ remU_zero _⟩,
      fun h => ⟨divU_toNat h, remU_toNat h⟩, fun h => ⟨divS_overflow h, remS_overflow h⟩,
      fun h0 h => ⟨divS_toInt h0 h, remS_toInt h0 h⟩, (divS_mul_add_remS _ _).symm, (divU_mul_add_remU _ _).symm⟩
  · refine ⟨gives_wrote rfl (add_imm12 _ _), gives_wrote rfl (by rw [imm12_eq_signed]), gives_wrote rfl (by rw [imm12_eq_signed]),
      gives_wrote rfl (by rw [imm12_eq_signed]), ?_, gives_wrote rfl (shiftLeft_eq_ofNat _ _),
      gives_wrote rfl (ushiftRight_eq_ofNat _ _), gives_wrote rfl (sshiftRight_eq_ite _ _)⟩
    have h : Gives (.slti d a i) s (Wrote s d (one ((s.reg a).toInt < (imm12 i).toInt))) := gives_wrote rfl (flag_decide _)
    rwa [imm12_toInt] at h
  · refine ⟨gives_wrote rfl (imm20u_eq i), ?_, ⟨leadingZeros (s.reg a), leadingZeros_le _, gives_wrote rfl rfl,
      toNat_lt_of_leadingZeros _, le_toNat_of_leadingZeros⟩, gives_wrote rfl (congrArg _ (oneBits_eq_sum _))⟩
    exact gives_wrote rfl (by rw [ofInt_toNat_add, imm20u_eq])

end Sys2Proof.Machine
end

section
/-! SUPPORT. Branches and jumps go where the rules say, link, or trap (04 R69-R71). -/

namespace Sys2Proof.Machine

open Claims

/-! ### Targets (R22, R69-R71) -/

/-- The target of a branch (R69). -/
def branchTarget (s : State) (i : BitVec 14) : Word := BitVec.ofInt 64 (s.me.pc.toNat + i.toInt * 4)

/-- The target of JAL (R70). -/
def jalTarget (s : State) (i : BitVec 20) : Word := BitVec.ofInt 64 (s.me.pc.toNat + i.toInt * 4)

theorem pc_add_off14 (s : State) (i : BitVec 14) : s.me.pc + off14 i = branchTarget s i := by
  rw [branchTarget, ofInt_toNat_add, off14_eq]

theorem pc_add_off20 (s : State) (i : BitVec 20) : s.me.pc + off20 i = jalTarget s i := by
  rw [jalTarget, ofInt_toNat_add, off20_eq]

/-- An aligned address plus a multiple of 4 is aligned. -/
theorem align4_add_mul4 (v : Word) (n : Int) (h : v.toNat % 4 = 0) :
    align4 (BitVec.ofInt 64 (v.toNat + n * 4)) = BitVec.ofInt 64 (v.toNat + n * 4) := by
  apply align4_of_aligned
  rw [BitVec.toNat_ofInt]
  omega

theorem align4_eq_ofNat (v : Word) : align4 v = BitVec.ofNat 64 (v.toNat / 4 * 4) := by
  rw [← align4_toNat, BitVec.ofNat_toNat, BitVec.setWidth_eq]

theorem Core.pc_aligned {k : Core} (h : k.legal = true) : k.pc.toNat % 4 = 0 := by
  obtain ⟨-, -, hpc, -⟩ := k.legal_iff.1 h
  exact hpc

/-! ### The shared jump -/

theorem State.jump_inRange (s : State) (k : Core) {t : Word} (h : t.toNat < 2 ^ 52) :
    s.jump k t = .next (s.setMe (k.setPc (align4 t))) := if_pos (decide_eq_true h)

theorem State.jump_outOfRange (s : State) (k : Core) {t : Word} (h : 2 ^ 52 ≤ t.toNat) : s.jump k t = s.trap 0x20 t :=
  if_neg (by simpa [targetOk] using h)

section

variable {s : State} {i : Instr} {k : Core} {t : Word}

/-- A jump in range that leaves the registers alone. -/
theorem gives_wentTo_of_jump (e : exec i s = s.jump s.me t) (h : t.toNat < 2 ^ 52) : Gives i s (WentTo s (align4 t)) :=
  ⟨_, e.trans (s.jump_inRange _ h), State.me_setMe .., onlyMe_setMe s _⟩

/-- A jump in range that writes a link. -/
theorem gives_linked_of_jump {d : Reg} {link : Word} (e : exec i s = s.jump (s.me.setReg d link) t) (h : t.toNat < 2 ^ 52) :
    Gives i s (Linked s d link (align4 t)) := by
  refine ⟨_, e.trans (s.jump_inRange _ h), ?_, ?_, ?_, onlyMe_setMe s _⟩ <;> rw [State.me_setMe]
  · obtain ⟨regs, marks⟩ := regsWritten_setReg s.me d link
    exact ⟨regs, marks⟩
  · rfl
  · rw [Core.setReg_eq]; rfl

/-- A jump out of range traps, whatever it would have written. -/
theorem gives_trapped_of_jump (e : exec i s = s.jump k t) (h : 2 ^ 52 ≤ t.toNat) (can : CanTrap s) :
    Gives i s (Trapped s 0x20 t) := by
  obtain ⟨u, hu, trapped⟩ := s.trap_trapped can 0x20 t
  exact ⟨u, e.trans ((s.jump_outOfRange k h).trans hu), trapped⟩

/-! ### Branches (R69) -/

/-- The six branches and their conditions on two words, as the statement lists them. -/
def branches (x y : Word) : List ((Reg → Reg → BitVec 14 → Instr) × Prop) :=
  [(.beq, x = y), (.bne, x ≠ y), (.blt, x.toInt < y.toInt), (.bge, x.toInt ≥ y.toInt),
    (.bltu, x.toNat < y.toNat), (.bgeu, x.toNat ≥ y.toNat)]

/-- Each listed branch is the shared one with a condition that holds as listed. -/
theorem exec_branch {x y : Word} {br : Reg → Reg → BitVec 14 → Instr} {c : Prop} (h : (br, c) ∈ branches x y) :
    ∃ cond : Cond, (∀ s a b j, exec (br a b j) s = s.branch cond a b j) ∧ (cond.holds x y = true ↔ c) := by
  simp only [branches, List.mem_cons, List.not_mem_nil, or_false, Prod.mk.injEq] at h
  obtain ⟨rfl, rfl⟩ | ⟨rfl, rfl⟩ | ⟨rfl, rfl⟩ | ⟨rfl, rfl⟩ | ⟨rfl, rfl⟩ | ⟨rfl, rfl⟩ := h
  · exact ⟨.eq, fun _ _ _ _ => rfl, decide_eq_true_iff⟩
  · exact ⟨.ne, fun _ _ _ _ => rfl, decide_eq_true_iff⟩
  · exact ⟨.lt, fun _ _ _ _ => rfl, decide_eq_true_iff⟩
  · exact ⟨.ge, fun _ _ _ _ => rfl, by simp [Cond.holds, BitVec.slt]⟩
  · exact ⟨.ltu, fun _ _ _ _ => rfl, decide_eq_true_iff⟩
  · exact ⟨.geu, fun _ _ _ _ => rfl, by simp [Cond.holds, BitVec.ult]⟩

variable {cond : Cond} {a b : Reg} {j : BitVec 14}

theorem State.branch_taken (h : cond.holds (s.reg a) (s.reg b) = true) : s.branch cond a b j = s.jump s.me (branchTarget s j) := by
  rw [← pc_add_off14]; exact if_pos h

theorem State.branch_not_taken (h : ¬cond.holds (s.reg a) (s.reg b) = true) : s.branch cond a b j = .next s.skip := if_neg h

end

/-- Settles O2: a branch is the shared jump where its condition holds, JAL and JALR are it with a link. -/
theorem branchesAndJumps : Obligations.BranchesAndJumps := by
  refine ⟨fun s a b j br c legal mem => ?_, fun s d a j m legal => ?_⟩
  · obtain ⟨cond, meaning, holds⟩ := exec_branch mem
    have aligned : align4 (branchTarget s j) = branchTarget s j := align4_add_mul4 _ _ (Core.pc_aligned legal)
    refine ⟨fun no => ?_, fun yes range => ?_, fun yes range can => ?_⟩
    · exact ⟨_, (meaning s a b j).trans (State.branch_not_taken (mt holds.1 no)), s.skip_wentTo⟩
    · have := gives_wentTo_of_jump ((meaning s a b j).trans (State.branch_taken (holds.2 yes))) range
      rwa [aligned] at this
    · exact gives_trapped_of_jump ((meaning s a b j).trans (State.branch_taken (holds.2 yes))) range can
  · have aligned : align4 (jalTarget s j) = jalTarget s j := align4_add_mul4 _ _ (Core.pc_aligned legal)
    have jal : exec (.jal d j) s = s.jump (s.me.setReg d (s.me.pc + 4)) (jalTarget s j) := by rw [← pc_add_off20]; rfl
    have jalr : exec (.jalr d a m) s = s.jump (s.me.setReg d (s.me.pc + 4)) (address s a m) := by
      rw [address, ← add_imm12]; rfl
    refine ⟨fun range => ?_, fun range => ?_, gives_trapped_of_jump jal, gives_trapped_of_jump jalr⟩
    · have := gives_linked_of_jump jal range
      rwa [aligned] at this
    · have := gives_linked_of_jump jalr range
      rwa [align4_eq_ofNat] at this

end Sys2Proof.Machine
end

section
/-! SUPPORT. Bytes and the numbers they make, and what a load extends and a store leaves (01 R11, R21; 04 R72, R73). -/

namespace Sys2Proof.Machine

open Claims

/-! ### Bytes and numbers (R11) -/

theorem leNat_lt (bs : List Byte) : leNat bs < 2 ^ (8 * bs.length) := by
  induction bs with
  | nil => decide
  | cons b bs ih =>
    have := b.isLt
    rw [List.length_cons, Nat.mul_add, Nat.pow_add, leNat]
    omega

@[simp] theorem leBytes_length (n v : Nat) : (leBytes n v).length = n := by
  induction n generalizing v with
  | zero => rfl
  | succ n ih => rw [leBytes, List.length_cons, ih]

theorem leBytes_getElem (n v j : Nat) (h : j < (leBytes n v).length) : (leBytes n v)[j] = BitVec.ofNat 8 (v / 2 ^ (8 * j)) := by
  induction n generalizing v j with
  | zero => simp [leBytes] at h
  | succ n ih =>
    cases j with
    | zero => simp [leBytes]
    | succ j =>
      simp only [leBytes, List.getElem_cons_succ, ih]
      rw [Nat.div_div_eq_div_mul, Nat.mul_add, Nat.add_comm, Nat.pow_add]

/-- The extension of loaded bytes is the one the statements name (R72). -/
theorem extend_leNat (sx : Bool) (bs : List Byte) (h : 0 < bs.length) : extend sx (8 * bs.length) (leNat bs) = loaded sx bs := by
  have small := leNat_lt bs
  have half : 2 ^ (8 * bs.length) = 2 * 2 ^ (8 * bs.length - 1) := by rw [← Nat.pow_succ']; congr 1; omega
  cases sx with
  | false => rfl
  | true =>
    simp only [extend, loaded, if_true, Bool.true_and, decide_eq_true_eq]
    rw [BitVec.signExtend, BitVec.toInt_eq_toNat_cond, BitVec.toNat_ofNat, Nat.mod_eq_of_lt small]
    by_cases neg : 2 ^ (8 * bs.length - 1) ≤ leNat bs
    · rw [if_pos neg, if_neg (by omega)]; norm_cast
    · rw [if_neg neg, if_pos (by omega), BitVec.ofInt_natCast]

/-! ### Loads (R72) -/

theorem State.ea_eq_address (s : State) (a : Reg) (i : BitVec 12) : s.ea a i = address s a i := add_imm12 _ _

theorem State.bytesAt_length (s : State) (pas : List Nat) : (s.bytesAt pas).length = pas.length := List.length_map ..

/-- A translation for data leaves the acting core as it was but for its data TLB. -/
theorem SameButTlb.me_of_itlb {s t : State} (h : SameButTlb s t) (e : t.me.itlb = s.me.itlb) :
    t.me = { s.me with dtlb := t.me.dtlb } := by
  have := h.core
  rwa [e] at this

/-- A register write after a translation for data is a load's next state. -/
theorem Loaded.of_wrote {s s1 t : State} {d : Reg} {v : Word} (same : SameButTlb s s1) (itlb : s1.me.itlb = s.me.itlb)
    (w : Wrote s1 d v t) : Loaded s d v t := by
  have me := same.me_of_itlb itlb
  obtain ⟨⟨regs, marks⟩, pc, core, only⟩ := w
  refine ⟨⟨fun r => ?_, ?_⟩, ?_, ?_, onlyMe_trans same.only only⟩
  · rw [regs r, me]; rfl
  · rw [marks, me]
  · rw [pc, me]
  · rw [core, me]

section

variable {s s1 : State} {a : Reg} {i : BitVec 12} {pas : List Nat} {n : Nat}

/-- A load whose bytes can be delivered (R72). -/
theorem State.load_loaded (d : Reg) (sx : Bool) (pos : 0 < n) (sp : s.span (address s a i) n .load = .ok pas s1)
    (there : s.undeliverables pas = none) (storage : isBlock pas = false) :
    ∃ t, s.load d a i n sx = .next t ∧ Loaded s d (loaded sx (s.bytesAt pas)) t := by
  obtain ⟨-, len, same, itlb⟩ := State.span_ok sp
  have value : extend sx (8 * n) (s1.loadValue pas) = loaded sx (s.bytesAt pas) := by
    have hl : (s.bytesAt pas).length = n := (s.bytesAt_length pas).trans len
    rw [State.loadValue, if_neg (by simp [storage]), onlyMe_bytesAt same.only, ← hl]
    exact extend_leNat sx _ (hl.symm ▸ pos)
  obtain ⟨t, ht, wrote⟩ := s1.writeNext_wrote d (loaded sx (s.bytesAt pas))
  refine ⟨t, ?_, Loaded.of_wrote same (itlb (by decide)) wrote⟩
  simp only [State.load, s.ea_eq_address, sp, onlyMe_undeliverables same.only, there, value, ht]

/-- Each listed load is the shared one with its size and its extension. -/
theorem exec_load {ld : Reg → Reg → BitVec 12 → Instr} {sx : Bool} (h : (ld, n, sx) ∈ loads) :
    0 < n ∧ ∀ s d a i, exec (ld d a i) s = s.load d a i n sx := by
  simp only [loads, List.mem_cons, List.not_mem_nil, or_false, Prod.mk.injEq] at h
  obtain ⟨rfl, rfl, rfl⟩ | ⟨rfl, rfl, rfl⟩ | ⟨rfl, rfl, rfl⟩ | ⟨rfl, rfl, rfl⟩ | ⟨rfl, rfl, rfl⟩ | ⟨rfl, rfl, rfl⟩ |
    ⟨rfl, rfl, rfl⟩ := h
  all_goals exact ⟨by decide, fun _ _ _ _ => rfl⟩

/-! ### Stores (R21, R73) -/

theorem window_ne_block {p : Nat} (h : p < blockBase) : window p ≠ .block := by
  have no : ¬(blockBase ≤ p ∧ p < 2 ^ 52) := fun hb => Nat.not_le.2 h hb.1
  simp only [window, if_neg no]
  repeat' split
  all_goals nofun

theorem isBlock_of_lt (h : ∀ p ∈ pas, p < blockBase) : isBlock pas = false := by
  cases pas with
  | nil => rfl
  | cons p ps => exact decide_eq_false (window_ne_block (h p List.mem_cons_self))

/-- Noting words that a fetch may still see changes nothing else of a core (R21). -/
theorem Core.foldl_noteStale (f : Nat → BitVec 32) (ws : List Nat) (k : Core) :
    ∃ l, ws.foldl (fun k w => k.noteStale w (f w)) k = { k with istale := l } := by
  induction ws generalizing k with
  | nil => exact ⟨_, rfl⟩
  | cons w ws ih => exact ih (k.noteStale w (f w))

/-- What the acting core notes before a store: of the module only its own list of stale words differs (R21). -/
theorem State.noteStores_spec (s : State) (ks : List Nat) :
    (s.noteStores ks).me = { s.me with istale := (s.noteStores ks).me.istale } ∧ OnlyMe s (s.noteStores ks) := by
  refine ⟨?_, onlyMe_setMe s _⟩
  unfold State.noteStores
  obtain ⟨l, hl⟩ := Core.foldl_noteStale (fun w => BitVec.ofNat 32 (leNat ((addrs (4 * w) 4).map s.byteAt)))
    ((ks.map (· / 4)).eraseDups) s.me
  rw [State.me_setMe, hl]

/-- A store of storage, as its parts. -/
theorem State.storeValue_of_storage (s : State) (v : Nat) (h : isBlock pas = false) :
    s.storeValue pas v = (s.noteStores (pas.map s.key)).storeBytes pas (leBytes pas.length v) := if_neg (by simp [h])

theorem State.storeBytes_cur (s : State) (pas : List Nat) (bs : List Byte) : (s.storeBytes pas bs).cur = s.cur := by
  rw [State.storeBytes_eq]

theorem State.storeBytes_core (s : State) (pas : List Nat) (bs : List Byte) : (s.storeBytes pas bs).core = s.core := by
  rw [State.storeBytes_eq]; rfl

theorem State.storeBytes_me (s : State) (pas : List Nat) (bs : List Byte) : (s.storeBytes pas bs).me = s.me := by
  rw [State.storeBytes_eq]; rfl

@[simp] theorem State.byteAt_skip (s : State) (k : Nat) : s.skip.byteAt k = s.byteAt k := rfl

/-- From a state that differs in the acting core alone, the bytes of a number written at addresses that storage takes, and pc + 4. -/
theorem Stored.of_storeBytes {s u : State} (only : OnlyMe s u) (me : u.me = { s.me with dtlb := u.me.dtlb, istale := u.me.istale })
    (takes : s.unstorable pas = none) (low : ∀ p ∈ pas, p < blockBase) (v : Nat) :
    Stored s pas v (u.storeBytes pas (leBytes pas.length v)).skip := by
  have key := onlyMe_key only
  refine ⟨fun j h last => ?_, fun k hk => ?_, ?_, fun c hc => ?_, ?_⟩
  · have mem := List.getElem_mem h
    rw [State.byteAt_skip, ← key, State.byteAt_storeBytes_same u pas _ j h (by rwa [leBytes_length]), leBytes_getElem]
    · rwa [key]
    · rw [key, onlyMe_repair only]; exact s.unstorable_none pas takes _ mem
    · exact u.key_lt _ (low _ mem)
  · rw [State.byteAt_skip, State.byteAt_storeBytes_other _ _ _ _ (key ▸ hk), onlyMe_byteAt only]
  · rw [State.me_skip, State.storeBytes_me, me]; rfl
  · have cur := (u.storeBytes_cur pas (leBytes pas.length v)).trans (onlyMe_cur only)
    rw [State.skip, State.core_setMe_other _ _ _ (cur ▸ hc), State.storeBytes_core, only.others c hc]
  · rw [State.storeBytes_eq, only.rest]; rfl

/-- A store that nothing refuses (R73). -/
theorem State.store_stored (b : Reg) (sp : s.span (address s a i) n .store = .ok pas s1) (free : s.storeRefused pas = none)
    (takes : s.unstorable pas = none) (low : ∀ p ∈ pas, p < blockBase) :
    ∃ t, s.store a b i n = .next t ∧ Stored s pas (s.reg b).toNat t := by
  obtain ⟨-, -, same, itlb⟩ := State.span_ok sp
  have me1 := same.me_of_itlb (itlb (by decide))
  have reg : s1.reg b = s.reg b := by rw [State.reg, me1]; rfl
  obtain ⟨noted, only⟩ := s1.noteStores_spec (pas.map s1.key)
  refine ⟨_, ?_, Stored.of_storeBytes (onlyMe_trans same.only only) ?_ takes low _⟩
  · simp only [State.store, s.ea_eq_address, sp, onlyMe_storeRefused same.only, free, onlyMe_unstorable same.only, takes,
      State.storeValue_of_storage _ _ (isBlock_of_lt low), reg]
  · rw [noted, me1]

/-- Each listed store is the shared one with its size. -/
theorem exec_store {st : Reg → Reg → BitVec 12 → Instr} (h : (st, n) ∈ stores) :
    ∀ s a b i, exec (st a b i) s = s.store a b i n := by
  simp only [stores, List.mem_cons, List.not_mem_nil, or_false, Prod.mk.injEq] at h
  obtain ⟨rfl, rfl⟩ | ⟨rfl, rfl⟩ | ⟨rfl, rfl⟩ | ⟨rfl, rfl⟩ := h
  all_goals exact fun _ _ _ _ => rfl

end

/-- Settles O3: every load and every store is the shared one, whose translation has answered and whose bytes are there. -/
theorem loadsAndStores : Obligations.LoadsAndStores := by
  refine ⟨fun s s1 d a i pas ld n sx mem sp there storage => ?_, fun s s1 a b i pas st n mem sp free takes low => ?_⟩
  · obtain ⟨pos, meaning⟩ := exec_load mem
    obtain ⟨t, ht, loaded⟩ := State.load_loaded d sx pos sp there storage
    exact ⟨t, (meaning s d a i).trans ht, loaded⟩
  · obtain ⟨t, ht, stored⟩ := State.store_stored b sp free takes low
    exact ⟨t, (exec_store mem s a b i).trans ht, stored⟩

end Sys2Proof.Machine
end

section
/-! SUPPORT. Sites and their elements: reading a site and a graph after a write, ports and outputs after a token is consumed or
written, and what an element's firing leaves (05 R92, R94, R95). -/

namespace Sys2Proof.Machine

open Claims

/-! ### Reads after writes of sites and graphs -/

/-- The key names the place (R82). -/
theorem eltKey_injective : Function.Injective eltKey := by
  rintro ⟨c, r, i, p⟩ ⟨c', r', i', p'⟩ h
  simp only [eltKey, siteKey, regionKey] at h
  simp only [Elt.mk.injEq, Fin.ext_iff]
  omega

@[simp] theorem State.site_setSite_same (s : State) (e : Elt) (x : SitePlane) : (s.setSite e x).site e = x :=
  SMap.get_set_same ..

theorem State.site_setSite_other (s : State) {e u : Elt} (x : SitePlane) (h : u ≠ e) : (s.setSite e x).site u = s.site u :=
  SMap.get_set_other _ _ _ (eltKey_injective.ne h)

@[simp] theorem State.graph_updGraph_same (s : State) (g : GraphIx) (f : Graph → Graph) : (s.updGraph g f).graph g = f (s.graph g) :=
  SMap.get_set_same ..

theorem State.graph_updGraph_other (s : State) {g h : GraphIx} (f : Graph → Graph) (ne : h ≠ g) :
    (s.updGraph g f).graph h = s.graph h := SMap.get_set_other _ _ _ fun eq => ne (Fin.ext eq)

/-- Entries of the replay log touch the log and the windows that cannot be replayed, nothing else of a graph (R406). -/
theorem Graph.log_spec (x : Graph) (w : Nat) (l : List Logged) : ∃ logged dead, x.log w l = { x with logged := logged, dead := dead } := by
  simp only [Graph.log, Graph.kill]
  repeat' split
  all_goals exact ⟨_, _, rfl⟩

/-! ### The halves of a site -/

@[simp] theorem SitePlane.half_setHalf (x : SitePlane) (r : Bool) (h : Half) : (x.setHalf r h).half r = h := by cases r <;> rfl

/-- A token written notes its event and its parity; the rest of the half stays. -/
@[simp] theorem SitePlane.half_put (x : SitePlane) (r : Bool) (o rl : Nat) (t : Token) : (x.put r o rl t).half r =
    { x.half r with face := (x.half r).face.note rl t,
                    parity := if t.isStop && o ≠ 2 then !(x.half r).parity else (x.half r).parity } := by cases r <;> rfl

@[simp] theorem SitePlane.half_consume (x : SitePlane) (r : Bool) (p : Nat) : (x.consume p).half r = x.half r := by
  unfold SitePlane.consume; cases x.direct p <;> rfl

@[simp] theorem SitePlane.half_eat (x : SitePlane) (r : Bool) (ports : List Nat) : (x.eat ports).half r = x.half r := by
  induction ports generalizing x with
  | nil => rfl
  | cons p ps ih => exact (ih (x.consume p)).trans (x.half_consume r p)

/-- A firing counted marks the half as fired and sets its ordinal; the rest of the half stays. -/
theorem SitePlane.half_counted (x : SitePlane) (r : Bool) :
    ((x.counted r).half r).drain = (x.half r).drain ∧ ((x.counted r).half r).dOut = (x.half r).dOut ∧
      ((x.counted r).half r).send = (x.half r).send := by
  unfold SitePlane.counted
  split <;> simp

/-- A firing that has set its ordinal anew is not counted again. -/
theorem SitePlane.counted_of_fired {x : SitePlane} {r : Bool} (h : (x.half r).fired = true) : x.counted r = x := if_pos h

/-! ### Inputs and outputs of a site -/

/-- The frames and the input stages of a site. -/
def SitePlane.inputs (x : SitePlane) : Option FrameBits × Option FrameBits × Option FrameBits × SMap Stage × SMap Stage :=
  (x.comp, x.tileFr, x.switch, x.links, x.ports)

@[simp] theorem SitePlane.inputs_setHalf (x : SitePlane) (r : Bool) (h : Half) : (x.setHalf r h).inputs = x.inputs := by cases r <;> rfl
@[simp] theorem SitePlane.outs_setHalf (x : SitePlane) (r : Bool) (h : Half) : (x.setHalf r h).outs = x.outs := by cases r <;> rfl
@[simp] theorem SitePlane.inputs_put (x : SitePlane) (r : Bool) (o rl : Nat) (t : Token) : (x.put r o rl t).inputs = x.inputs := by
  cases r <;> rfl
@[simp] theorem SitePlane.inputs_counted (x : SitePlane) (r : Bool) : (x.counted r).inputs = x.inputs := by
  unfold SitePlane.counted; split <;> simp
@[simp] theorem SitePlane.outs_counted (x : SitePlane) (r : Bool) : (x.counted r).outs = x.outs := by
  unfold SitePlane.counted; split <;> simp

theorem SitePlane.out_of_outs {x y : SitePlane} (h : y.outs = x.outs) (o : Nat) : y.out o = x.out o := by
  rw [SitePlane.out, h]; rfl

theorem SitePlane.out_put (x : SitePlane) (r : Bool) (o rl : Nat) (t : Token) (q : Nat) :
    (x.put r o rl t).out q = if q = o then { x.out o with nxt := some t } else x.out q := by
  simp only [SitePlane.put, SitePlane.setOut, SitePlane.out, outs_setHalf]
  exact SMap.get_set ..

/-- The track a port reads is a matter of the routes (R92). -/
theorem SitePlane.direct_of_switch {x y : SitePlane} (h : y.switch = x.switch) : y.direct = x.direct := by
  unfold SitePlane.direct SitePlane.dests SitePlane.select
  rw [h]

/-- What a port shows depends on the routes and the input stages alone (R92). -/
theorem SitePlane.portStage_of_inputs {x y : SitePlane} (h : y.inputs = x.inputs) (p : Nat) : y.portStage p = x.portStage p := by
  simp only [SitePlane.inputs, Prod.mk.injEq] at h
  obtain ⟨-, -, sw, ln, po⟩ := h
  simp only [SitePlane.portStage, SitePlane.direct_of_switch sw, ln, po]

/-- Two ports never read one link stage: a track read directly has no other destination (R92). -/
theorem SitePlane.direct_inj {x : SitePlane} {p q t : Nat} (hp : x.direct p = some t) (hq : x.direct q = some t) : p = q := by
  simp only [SitePlane.direct, Option.ite_none_right_eq_some, Option.some.injEq] at hp hq
  obtain ⟨⟨one, -, dp⟩, tp⟩ := hp
  obtain ⟨⟨one', -, dq⟩, tq⟩ := hq
  have same : x.select (8 + p) = x.select (8 + q) := by omega
  rw [same, dq, List.cons.injEq] at dp
  omega

theorem SitePlane.frames_consume (x : SitePlane) (p : Nat) : (x.consume p).comp = x.comp ∧ (x.consume p).tileFr = x.tileFr ∧
    (x.consume p).switch = x.switch ∧ (x.consume p).outs = x.outs := by
  unfold SitePlane.consume; cases x.direct p <;> exact ⟨rfl, rfl, rfl, rfl⟩

/-- A port consumed loses its head; the others keep theirs (R92). -/
theorem SitePlane.portStage_consume (x : SitePlane) (p q : Nat) :
    (x.consume p).portStage q = if q = p then (x.portStage p).pop else x.portStage q := by
  obtain ⟨-, -, sw, -⟩ := x.frames_consume p
  rw [SitePlane.portStage, direct_of_switch sw]
  by_cases ne : q = p
  · subst ne
    cases h : x.direct q <;> simp [SitePlane.consume, SitePlane.portStage, h, stageAt]
  · rw [if_neg ne]
    cases hp : x.direct p <;> cases hq : x.direct q <;> simp only [SitePlane.consume, SitePlane.portStage, hp, hq, stageAt]
    case none.none => exact SMap.get_set_other _ _ _ ne
    case some.some => exact SMap.get_set_other _ _ _ fun eq => ne (direct_inj (eq ▸ hq) hp)

/-! ### What a firing does to its site -/

/-- A site y is x with the heads of the listed ports consumed and the listed tokens written into its outputs, and no others. -/
structure SiteDoes (x : SitePlane) (ports : List Nat) (sends : List (Nat × Token)) (y : SitePlane) : Prop where
  frames : y.comp = x.comp ∧ y.tileFr = x.tileFr ∧ y.switch = x.switch
  eats   : ∀ p, (y.portStage p).toks = if p ∈ ports then (x.portStage p).toks.tail else (x.portStage p).toks
  emits  : ∀ p ∈ sends, (y.out p.1).nxt = some p.2
  still  : ∀ o, (∀ p ∈ sends, p.1 ≠ o) → y.out o = x.out o

namespace SiteDoes

variable {x y z : SitePlane} {ports : List Nat} {sends : List (Nat × Token)}

theorem refl (x : SitePlane) : SiteDoes x [] [] x := ⟨⟨rfl, rfl, rfl⟩, fun _ => by simp, by simp, fun _ _ => rfl⟩

/-- What changes neither inputs nor outputs does not count. -/
theorem congr (h : SiteDoes x ports sends y) (ins : z.inputs = y.inputs) (outs : z.outs = y.outs) : SiteDoes x ports sends z := by
  have frames := ins
  simp only [SitePlane.inputs, Prod.mk.injEq] at frames
  obtain ⟨co, ti, sw, -, -⟩ := frames
  exact ⟨by rw [co, ti, sw]; exact h.frames, fun p => by rw [SitePlane.portStage_of_inputs ins]; exact h.eats p,
    fun p hp => by rw [SitePlane.out_of_outs outs]; exact h.emits p hp,
    fun o ho => by rw [SitePlane.out_of_outs outs]; exact h.still o ho⟩

theorem consume (x : SitePlane) (p : Nat) : SiteDoes x [p] [] (x.consume p) := by
  obtain ⟨co, ti, sw, outs⟩ := x.frames_consume p
  refine ⟨⟨co, ti, sw⟩, fun q => ?_, by simp, fun o _ => SitePlane.out_of_outs outs o⟩
  rw [SitePlane.portStage_consume]
  by_cases h : q = p <;> simp [h, Stage.pop]

/-- Several ports consumed, each once. -/
theorem eat (x : SitePlane) (once : ports.Nodup) : SiteDoes x ports [] (x.eat ports) := by
  induction ports generalizing x with
  | nil => exact refl x
  | cons p ps ih =>
    obtain ⟨notin, once⟩ := List.nodup_cons.1 once
    obtain ⟨⟨co, ti, sw⟩, first, -, out⟩ := consume x p
    obtain ⟨⟨co', ti', sw'⟩, rest, -, out'⟩ := ih (x.consume p) once
    refine ⟨⟨co'.trans co, ti'.trans ti, sw'.trans sw⟩, fun q => (rest q).trans ?_, by simp,
      fun o h => (out' o (by simp)).trans (out o (by simp))⟩
    rw [first q]
    by_cases eq : q = p
    · subst eq; simp [notin]
    · simp [eq]

/-- A token written into an output that holds none of the others. -/
theorem put (h : SiteDoes x ports sends y) (r : Bool) (o rl : Nat) (t : Token) (new : ∀ p ∈ sends, p.1 ≠ o) :
    SiteDoes x ports ((o, t) :: sends) (y.put r o rl t) := by
  have frames := y.inputs_put r o rl t
  have ports := SitePlane.portStage_of_inputs frames
  simp only [SitePlane.inputs, Prod.mk.injEq] at frames
  obtain ⟨co, ti, sw, -, -⟩ := frames
  refine ⟨by rw [co, ti, sw]; exact h.frames, fun p => by rw [ports]; exact h.eats p, fun p hp => ?_, fun q hq => ?_⟩
  · rw [SitePlane.out_put]
    obtain rfl | old := List.mem_cons.1 hp
    · rw [if_pos rfl]
    · rw [if_neg (new p old)]; exact h.emits p old
  · obtain ⟨ne, others⟩ := List.forall_mem_cons.1 hq
    rw [SitePlane.out_put, if_neg (Ne.symm ne)]
    exact h.still q others

theorem perm {sends' : List (Nat × Token)} (h : SiteDoes x ports sends y) (e : sends.Perm sends') : SiteDoes x ports sends' y :=
  ⟨h.frames, h.eats, fun p hp => h.emits p (e.mem_iff.2 hp), fun o ho => h.still o fun p hp => ho p (e.mem_iff.1 hp)⟩

/-- One token written into several outputs, each once. -/
theorem foldl_put (h : SiteDoes x ports sends y) (r : Bool) (rl : Nat) (t : Token) (outs : List Nat) (once : outs.Nodup)
    (new : ∀ o ∈ outs, ∀ p ∈ sends, p.1 ≠ o) :
    SiteDoes x ports (outs.map (·, t) ++ sends) (outs.foldl (fun w o => w.put r o rl t) y) := by
  induction outs generalizing y sends with
  | nil => exact h
  | cons o os ih =>
    obtain ⟨notin, once⟩ := List.nodup_cons.1 once
    obtain ⟨first, later⟩ := List.forall_mem_cons.1 new
    have first := h.put r o rl t first
    refine (ih first once fun q hq p hp => ?_).perm List.perm_middle
    obtain rfl | old := List.mem_cons.1 hp
    · exact fun (eq : o = q) => notin (eq ▸ hq)
    · exact later q hq p old

end SiteDoes

/-! ### What a firing does to the module -/

section

variable {s : State} {g : GraphIx} {e : Elt} {r : Bool} {y : SitePlane} {l : List Logged} {ports : List Nat} {sends : List (Nat × Token)}

@[simp] theorem State.site_fired (s : State) (g : GraphIx) (e : Elt) (r : Bool) (y : SitePlane) (l : List Logged) :
    (s.fired g e r y l).site e = y.counted r := State.site_setSite_same ..

/-- A site that has fired, put into the module: nothing else but the graph's counters changes. -/
theorem State.fired_does (h : SiteDoes (s.site e) ports sends y) : Does s g e ports sends (s.fired g e r y l) := by
  obtain ⟨frames, eats, emits, still⟩ : SiteDoes (s.site e) ports sends ((s.fired g e r y l).site e) := by
    rw [State.site_fired]; exact h.congr (y.inputs_counted r) (y.outs_counted r)
  refine ⟨⟨fun u ne => State.site_setSite_other s _ ne, frames, ?_, fun k ne => ?_, rfl⟩, fun p _ => eats p, emits, fun o _ => still o⟩
  · obtain ⟨logged, dead, log⟩ := Graph.log_spec (s.graph g) (s.graph g).lowWin l
    have now : (s.fired g e r y l).graph g = { (s.graph g).log (s.graph g).lowWin l with act := (s.graph g).act + 1 } :=
      State.graph_updGraph_same ..
    rw [now, log]
  · exact (State.graph_updGraph_other _ _ ne).trans rfl

/-- Who may fire may fire for its graph (R94, R232). -/
theorem State.mayFire_eq_some (h : MayFire s g e r) : s.mayFire e r = some g := by
  obtain ⟨active, owner, live, run, thawed, ctx, fresh, -⟩ := h
  have free : s.siteTaken e r = false := by
    simp only [State.siteTaken, List.any_eq_false, fresh, Bool.false_eq_true, not_false_eq_true, implies_true]
  simp [State.mayFire, free, State.actingFor, active, owner, Graph.sitesRun, live, run, thawed, ctx]

/-- With no skip request to send, sending changes nothing (R165). -/
theorem State.sendAsked_of_none (h : (s.site e).elem.send = none) (ports : List Nat) : s.sendAsked g e ports = s := by
  rw [State.sendAsked, h]

variable {f : FrameBits} {op : Nat}

/-- A compute cell that steps, without a skip request of its own (R165). -/
theorem State.fireCellAt_of_step (may : MayFire s g e false) (comp : (s.site e).comp = some f) (code : opcOf f = op)
    (st : cellStep op f (s.envOf g e) (s.site e) = some y) (quiet : (y.half false).send = none) :
    s.fireCellAt op e = .next (s.fired g e false y []) := by
  have still : ((s.fired g e false y []).site e).elem.send = none := by
    obtain ⟨-, -, send⟩ := y.half_counted false
    rw [State.site_fired]
    exact send.trans quiet
  simp only [State.fireCellAt, State.mayFire_eq_some may, comp, code, ne_eq, not_true_eq_false, if_false, st, State.sendAsked_of_none still]

/-- A fibre cell that steps. -/
theorem State.fireFibreAt_of_step (may : MayFire s g e false) (comp : (s.site e).comp = some f) (code : opcOf f = op)
    (st : fibreStep op f (s.envOf g e) (s.site e) = some y) : s.fireFibreAt op e = .next (s.fired g e false y []) := by
  simp only [State.fireFibreAt, State.mayFire_eq_some may, comp, code, ne_eq, not_true_eq_false, if_false, st]

/-- A router element that steps. -/
theorem State.fireRouterAt_of_step (may : MayFire s g e true) (frame : (s.site e).switch = some f) (code : opcOf f = op)
    (st : routerStep op f (s.envOf g e) (s.site e) = some y) :
    s.fireRouterAt op e = .next (s.fired g e true y (routerBits op (s.site e) y)) := by
  simp only [State.fireRouterAt, State.mayFire_eq_some may, frame, code, ne_eq, not_true_eq_false, if_false, st]

end

end Sys2Proof.Machine
end

section
/-! SUPPORT. Error tokens and drains: the examination of the heads, an error token passed on or made, one cycle of the drain
(05 R100-R102; 10 R206). -/

namespace Sys2Proof.Machine

open Claims

section

variable {x : SitePlane} {env : Env} {r : Bool} {ports outs : List Nat} {rl : Nat}

/-! ### The examination of the heads (R100, R101) -/

/-- In ascending ports the first error token is that of the lowest port that has one. -/
theorem SitePlane.errPort_eq_some {p : Nat} {k : Token} (asc : ports.Pairwise (· < ·)) (mem : p ∈ ports) (head : x.head p = some k)
    (err : k.err = true) (before : ∀ q ∈ ports, q < p → ∀ h, x.head q = some h → h.err = false) : x.errPort ports = some (p, k) := by
  obtain ⟨l, l', rfl⟩ := List.append_of_mem mem
  refine List.findSome?_eq_some_iff.2 ⟨l, p, l', rfl, by simp [head, err], fun q hq => ?_⟩
  have lt : q < p := (List.pairwise_append.1 asc).2.2 q hq p List.mem_cons_self
  have clean := before q (List.mem_append_left _ hq) lt
  cases h : x.head q with
  | none => rfl
  | some t => simp [clean t h]

theorem SitePlane.errPort_eq_none (clean : ∀ p ∈ ports, ∀ t, x.head p = some t → t.err = false) : x.errPort ports = none := by
  refine List.findSome?_eq_none_iff.2 fun p hp => ?_
  cases h : x.head p with
  | none => rfl
  | some t => simp [clean p hp t h]

/-- An error token at a port goes through (R100). -/
theorem SitePlane.look_of_err {p : Nat} {t : Token} (err : x.errPort ports = some (p, t)) (free : env.free.contains (outs.headD 0) = true) :
    x.look env r ports outs rl = .done (x.forward r p outs rl t) := by
  simp only [SitePlane.look, err, free, if_true]

/-- Two heads of different kinds make the element fail (R101). -/
theorem SitePlane.look_of_mixed {a b : Token} (ha : x.head 0 = some a) (hb : x.head 1 = some b) (ea : a.err = false)
    (eb : b.err = false) (ne : a.kind ≠ b.kind) (free : env.free.contains (outs.headD 0) = true) :
    x.look env r [0, 1] outs rl = .done (x.fail env r [0, 1] outs rl 1 (shapeDetail x [0, 1])) := by
  have clean : x.errPort [0, 1] = none := errPort_eq_none (by simp [ha, hb, ea, eb])
  have heads : [0, 1].mapM x.head = some [a, b] := by simp [ha, hb]
  have mixed : ([b].all fun t => t.kind = a.kind) = false := by simp [Ne.symm ne]
  simp only [SitePlane.look, clean, heads, mixed, free, if_true, Bool.false_eq_true, if_false]

/-! ### Error tokens passed on and made (R100, R101) -/

theorem SiteDoes.forward (x : SitePlane) (r : Bool) (p : Nat) (outs : List Nat) (rl : Nat) (t : Token) :
    SiteDoes x [p] [(outs.headD 0, t)] (x.forward r p outs rl t) :=
  ((consume x p).put r _ rl t (by simp)).congr (SitePlane.inputs_setHalf ..) (SitePlane.outs_setHalf ..)

theorem SitePlane.half_forward (x : SitePlane) (r : Bool) (p : Nat) (outs : List Nat) (rl : Nat) (t : Token) :
    let h := (x.forward r p outs rl t).half r
    h.drain = some [] ∧ h.dOut = outs ∧ h.send = (x.half r).send := by
  simp [SitePlane.forward]

theorem SiteDoes.fail (x : SitePlane) (env : Env) (r : Bool) (ports outs : List Nat) (rl : Nat) (cause : Byte) (detail : Nat) :
    SiteDoes x [] [(outs.headD 0, errTok (cause.toNat + 256 * detail) env.loc)] (x.fail env r ports outs rl cause detail) :=
  ((refl x).put r _ rl _ (by simp)).congr (SitePlane.inputs_setHalf ..) (SitePlane.outs_setHalf ..)

theorem SitePlane.half_fail (x : SitePlane) (env : Env) (r : Bool) (ports outs : List Nat) (rl : Nat) (cause : Byte) (detail : Nat) :
    let h := (x.fail env r ports outs rl cause detail).half r
    h.drain = some [] ∧ h.dOut = outs ∧ h.send = (x.half r).send := by
  cases r <;> exact ⟨rfl, rfl, rfl⟩

@[simp] theorem errTok_lane_zero (l0 loc : Nat) : (errTok l0 loc).lane 0 = BitVec.ofNat 40 l0 := rfl
@[simp] theorem errTok_lane_one (l0 loc : Nat) : (errTok l0 loc).lane 1 = BitVec.ofNat 40 loc := rfl

/-- Lane 0 of a shape mismatch of A and B: the cause, both kinds and both ports (R101). -/
theorem shapeDetail_two {a b : Token} (ha : x.head 0 = some a) (hb : x.head 1 = some b) :
    shapeDetail x [0, 1] = a.kind.val + 8 * b.kind.val + 512 * 3 := by
  simp only [shapeDetail, List.foldl_cons, List.foldl_nil, ha, hb, Nat.zero_mod, Nat.one_mod, Nat.pow_zero, Nat.pow_one]
  omega

/-! ### One cycle of the drain (R102, R206) -/

/-- The ports whose heads a drain discards in a cycle, got being those whose D it has. -/
def SitePlane.drainNow (x : SitePlane) (ports got : List Nat) : List Nat :=
  ports.filter fun p => !got.contains p && (x.head p).isSome

/-- The ports whose D a drain has after that cycle. -/
def SitePlane.drainDone (x : SitePlane) (ports got : List Nat) : List Nat :=
  got ++ (x.drainNow ports got).filter fun p => (x.head p).any fun k => k.kind = 7

variable {got : List Nat} {reset : SitePlane → SitePlane}

/-- While a port still has to give its D, the heads are discarded and nothing is emitted. -/
theorem SitePlane.drainStep_discards (dr : (x.half r).drain = some got) (some_ : x.drainNow ports got ≠ [])
    (more : ports.all (x.drainDone ports got).contains = false) :
    x.drainStep env r ports ports rl reset =
      some ((x.eat (x.drainNow ports got)).setHalf r { x.half r with drain := some (x.drainDone ports got) }) := by
  have unpaid : ((x.half r).dOut.filter fun _ => true) = (x.half r).dOut := List.filter_eq_self.2 fun _ _ => rfl
  have notEmpty : (x.drainNow ports got).isEmpty = false := List.isEmpty_eq_false_iff.2 some_
  unfold SitePlane.drainDone SitePlane.drainNow at more
  unfold SitePlane.drainNow at notEmpty
  simp only [SitePlane.drainStep, dr, Token.isDone, more, notEmpty, Bool.false_and, Bool.false_eq_true, if_false, List.foldl_nil,
    half_eat, List.contains_nil, Bool.not_false, unpaid]
  rfl

/-- The site once D has been written into the outputs that owe it, the heads having been discarded. -/
def SitePlane.drained (x : SitePlane) (r : Bool) (ports got : List Nat) (rl : Nat) : SitePlane :=
  (x.half r).dOut.foldl (fun w o => w.put r o rl doneTok) (x.eat (x.drainNow ports got))

/-- With the last D of its ports and with free outputs, the element emits every D it owes and is reset. -/
theorem SitePlane.drainStep_ends (dr : (x.half r).drain = some got) (ended : ports.all (x.drainDone ports got).contains = true)
    (free : ∀ o ∈ (x.half r).dOut, env.free.contains o = true) :
    x.drainStep env r ports ports rl reset = some (reset ((x.drained r ports got rl).setHalf r
      { (x.drained r ports got rl).half r with drain := none, dOut := [], skip := false, firing := 0, fired := true })) := by
  have all : (x.half r).dOut.filter env.free.contains = (x.half r).dOut := List.filter_eq_self.2 free
  have paid : ((x.half r).dOut.filter fun o => !(x.half r).dOut.contains o) = [] := by simp
  have turn : ((x.drainNow ports got).isEmpty && (x.half r).dOut.isEmpty && !((x.half r).dOut.isEmpty && ports.all got.contains)) = false := by
    by_cases none_ : x.drainNow ports got = []
    · have before : ports.all got.contains = true := by
        simpa only [SitePlane.drainDone, none_, List.filter_nil, List.append_nil] using ended
      rw [before]
      cases (x.half r).dOut.isEmpty <;> simp
    · simp [none_]
  unfold SitePlane.drained
  unfold SitePlane.drainDone at ended
  unfold SitePlane.drainNow at ended turn ⊢
  simp only [SitePlane.drainStep, dr, Token.isDone, ended, all, paid, turn, if_true, Bool.false_eq_true, if_false, List.isEmpty_nil,
    Bool.and_self]

theorem SiteDoes.drained (x : SitePlane) (r : Bool) (got : List Nat) (rl : Nat) (once : ports.Nodup) (owed : (x.half r).dOut.Nodup) :
    SiteDoes x (x.drainNow ports got) ((x.half r).dOut.map (·, doneTok)) (x.drained r ports got rl) := by
  have := (eat x (ports := x.drainNow ports got) (List.Pairwise.filter _ once)).foldl_put r rl doneTok (x.half r).dOut owed (by simp)
  rwa [List.append_nil] at this

theorem SitePlane.half_drained_send (x : SitePlane) (r : Bool) (ports got : List Nat) (rl : Nat) :
    ((x.drained r ports got rl).half r).send = (x.half r).send := by
  have each : ∀ (l : List Nat) (y : SitePlane), ((l.foldl (fun w o => w.put r o rl doneTok) y).half r).send = (y.half r).send := by
    intro l
    induction l with
    | nil => exact fun _ => rfl
    | cons o os ih => exact fun y => (ih _).trans (by rw [half_put])
  exact (each _ _).trans (by rw [half_eat])

end

/-! ### The cells that examine their heads alike (R171) -/

section

variable {mk : Elt → Instr} {op : Nat} {reads : List Nat}

/-- Each listed opcode is neither ICDF nor one of the signed-digit ones, and its ports are the operands the model reads. -/
theorem cell_code (h : (mk, op, reads) ∈ plainCells ++ keepers) :
    op < 0x38 ∧ op ≠ 0x32 ∧ cellReads op = reads ∧ reads.Pairwise (· < ·) := by
  have all : ∀ p ∈ plainCells ++ keepers, p.2.1 < 0x38 ∧ p.2.1 ≠ 0x32 ∧ cellReads p.2.1 = p.2.2 ∧ p.2.2.Pairwise (· < ·) := by decide
  exact all _ h

/-- Each listed opcode fires as the cell of its code. -/
theorem exec_cell (h : (mk, op, reads) ∈ plainCells ++ keepers) : ∀ e s, exec (mk e) s = s.fireCellAt op e := by
  have all : ∀ p ∈ plainCells ++ keepers, ∀ e s, exec (p.1 e) s = s.fireCellAt p.2.1 e := by
    simp only [plainCells, laneCells, keepers, List.map_cons, List.map_nil, List.cons_append, List.nil_append, List.forall_mem_cons,
      List.not_mem_nil, false_implies, implies_true, and_true]
    repeat' apply And.intro
    all_goals exact fun _ _ => rfl
  exact all _ h

theorem cellStep_of_lt (h : op < 0x38) : cellStep op = fireCell op := by
  unfold cellStep
  split
  case h_6 => rfl
  all_goals omega

variable {s : State} {g : GraphIx} {e : Elt} {f : FrameBits} {y : SitePlane}

/-- A cell whose examination of its heads calls for a token of its own, or for one passed on, fires with it (R100). -/
theorem exec_cell_of_look (h : (mk, op, reads) ∈ plainCells ++ keepers) (cell : CellAt s g e f op)
    (look : (s.site e).look (s.envOf g e) false (portsOf f reads) [0] (rlvlOf f) = .done y)
    (quiet : (y.half false).send = ((s.site e).half false).send) : exec (mk e) s = .next (s.fired g e false y []) := by
  obtain ⟨may, calm, comp, code⟩ := cell
  obtain ⟨lt, ne, rfl, -⟩ := cell_code h
  have names : cellNames op f (s.site e) = portsOf f (cellReads op) := by simp [cellNames, cellPorts, portsOf, ne]
  have st : cellStep op f (s.envOf g e) (s.site e) = some y := by
    rw [cellStep_of_lt lt, fireCell, calm, names]
    simp only [Option.isSome_none, Bool.false_eq_true, if_false, look]
  rw [exec_cell h]
  exact State.fireCellAt_of_step may comp code st (quiet.trans may.quiet)

/-- An error token at a port, passed on (R100). -/
theorem cell_forwards {p : Nat} {k : Token} (h : (mk, op, reads) ∈ plainCells ++ keepers) (cell : CellAt s g e f op) (free : Free s g e 0)
    (mem : p ∈ portsOf f reads) (head : (s.site e).head p = some k) (err : k.err = true)
    (before : ∀ q ∈ portsOf f reads, q < p → ∀ h, (s.site e).head q = some h → h.err = false) :
    Gives (mk e) s fun t => Fired s g e t ∧ Consumed s t e [p] ∧ Emits t e 0 k ∧ (t.site e).elem.drain = some [] ∧
      (t.site e).elem.dOut = [0] := by
  obtain ⟨-, -, -, asc⟩ := cell_code h
  have look := SitePlane.look_of_err (r := false) (rl := rlvlOf f) (outs := [0])
    (SitePlane.errPort_eq_some (asc.filter _) mem head err before) free
  obtain ⟨drain, dOut, send⟩ := (s.site e).half_forward false p [0] (rlvlOf f) k
  have does := State.fired_does (g := g) (r := false) (l := []) (SiteDoes.forward (s.site e) false p [0] (rlvlOf f) k)
  obtain ⟨drain', dOut', -⟩ := ((s.site e).forward false p [0] (rlvlOf f) k).half_counted false
  refine ⟨_, exec_cell_of_look h cell look send, does.fired, does.eats, does.emits _ List.mem_cons_self, ?_, ?_⟩
  · rw [State.site_fired]; exact drain'.trans drain
  · rw [State.site_fired]; exact dOut'.trans dOut

/-- Heads of different kinds, answered by the error token 0x01 (R101). -/
theorem cell_fails_mixed {a b : Token} (h : (mk, op, reads) ∈ plainCells ++ keepers) (cell : CellAt s g e f op) (free : Free s g e 0)
    (two : portsOf f reads = [0, 1]) (ha : (s.site e).head 0 = some a) (hb : (s.site e).head 1 = some b) (ea : a.err = false)
    (eb : b.err = false) (ne : a.kind ≠ b.kind) :
    Gives (mk e) s fun t => Fired s g e t ∧ Consumed s t e [] ∧ (t.site e).elem.drain = some [] ∧
      Emits t e 0 (errTok (1 + 256 * (a.kind.val + 8 * b.kind.val + 512 * 3)) (s.locOf e)) := by
  have look := SitePlane.look_of_mixed (r := false) (rl := rlvlOf f) (outs := [0]) ha hb ea eb ne free
  rw [← two] at look
  have does := State.fired_does (g := g) (r := false) (l := [])
    (SiteDoes.fail (s.site e) (s.envOf g e) false (portsOf f reads) [0] (rlvlOf f) 1 (shapeDetail (s.site e) (portsOf f reads)))
  obtain ⟨drain, -, send⟩ := (s.site e).half_fail (s.envOf g e) false (portsOf f reads) [0] (rlvlOf f) 1
    (shapeDetail (s.site e) (portsOf f reads))
  obtain ⟨drain', -, -⟩ := SitePlane.half_counted (SitePlane.fail ..) false
  refine ⟨_, exec_cell_of_look h cell look send, does.fired, does.eats, ?_, ?_⟩
  · rw [State.site_fired]; exact drain'.trans drain
  · rw [← shapeDetail_two ha hb, ← two]
    exact does.emits _ List.mem_cons_self

end

/-! ### The elements that drain (R102, R206) -/

/-- What a drain that has ended resets: the router element, the compute cell or the fibre cell (R98). -/
def drainReset (r : Bool) (op : Nat) : SitePlane → SitePlane :=
  if r then SitePlane.resetRouter else if op < 0x50 then SitePlane.resetCell else SitePlane.resetFibre

/-- A cell that drains does nothing else. -/
theorem fireCell_of_drain {x : SitePlane} {env : Env} {op : Nat} {f : FrameBits} (h : x.elem.drain.isSome = true) :
    fireCell op f env x = x.drainStep env false (cellPorts f op) (cellPorts f op) (rlvlOf f) SitePlane.resetCell := if_pos h

theorem fibreStep_of_drain {x : SitePlane} {env : Env} {op : Nat} {f : FrameBits} (h : x.elem.drain.isSome = true) :
    fibreStep op f env x = x.drainStep env false (fibrePorts op f) (fibrePorts op f) (rlvlOf f) SitePlane.resetFibre := if_pos h

/-- The D's of a router element but CARRY wait for every input. -/
theorem routerStep_of_drain {x : SitePlane} {env : Env} {op : Nat} {f : FrameBits} (h : x.rout.drain.isSome = true) (ne : op ≠ 5) :
    routerStep op f env x = x.drainStep env true (routerIns op) (routerIns op) (rlvlOf f) SitePlane.resetRouter :=
  (if_pos h).trans (by rw [if_neg ne])

/-- The choices of a router element that drains are not logged (R406). -/
theorem routerBits_of_drain {x : SitePlane} (h : x.rout.drain.isSome = true) (op : Nat) (y : SitePlane) : routerBits op x y = [] := by
  simp only [routerBits, h, Bool.true_or, if_true]

theorem drainReset_inputs (r : Bool) (op : Nat) (x : SitePlane) : (drainReset r op x).inputs = x.inputs := by
  unfold drainReset; repeat' split
  all_goals rfl

theorem drainReset_outs (r : Bool) (op : Nat) (x : SitePlane) : (drainReset r op x).outs = x.outs := by
  unfold drainReset; repeat' split
  all_goals rfl

theorem half_drainReset (r : Bool) (op : Nat) (x : SitePlane) : (drainReset r op x).half r = x.half r := by
  unfold drainReset; repeat' split
  all_goals rfl

theorem drainReset_reset (r : Bool) (op : Nat) (x : SitePlane) :
    if r then (drainReset r op x).router = .reset
    else if op < 0x50 then (drainReset r op x).cell = .reset else (drainReset r op x).fibre = .reset := by
  unfold drainReset; repeat' split
  all_goals rfl

theorem fibrePorts_nodup (op : Nat) (f : FrameBits) : (fibrePorts op f).Nodup := by
  unfold fibrePorts; repeat' split
  all_goals decide

theorem routerIns_nodup (op : Nat) : (routerIns op).Nodup := by
  unfold routerIns; split
  all_goals decide

/-- The kinds of elements that drain alike: cells that examine their heads alike, fibre cells, router elements but CARRY. -/
inductive Drainer (f : FrameBits) : (Elt → Instr) → Nat → List Nat → Bool → Prop where
  | cell {mk : Elt → Instr} {op : Nat} {reads : List Nat} (mem : (mk, op, reads) ∈ plainCells ++ keepers) :
      Drainer f mk op (portsOf f reads) false
  | fibre {mk : Elt → Instr} {op : Nat} (fires : ∀ e s, exec (mk e) s = s.fireFibreAt op e) (ge : ¬op < 0x50) :
      Drainer f mk op (fibrePorts op f) false
  | router {mk : Elt → Instr} {op : Nat} (fires : ∀ e s, exec (mk e) s = s.fireRouterAt op e) (ne : op ≠ 5) :
      Drainer f mk op (routerIns op) true

section

variable {mk : Elt → Instr} {op : Nat} {ports got : List Nat} {r : Bool} {s : State} {g : GraphIx} {e : Elt} {f : FrameBits} {y : SitePlane}

theorem drainer_of_mem (h : (mk, op, ports, r) ∈ drainers f) : Drainer f mk op ports r := by
  have all : ∀ d ∈ drainers f, Drainer f d.1 d.2.1 d.2.2.1 d.2.2.2 := by
    refine List.forall_mem_append.2 ⟨fun d hd => ?_, ?_⟩
    · obtain ⟨p, hp, rfl⟩ := List.mem_map.1 hd
      exact .cell hp
    · simp only [List.forall_mem_cons, List.not_mem_nil, false_implies, implies_true, and_true]
      iterate 9 refine ⟨.fibre (fun _ _ => rfl) (by decide), ?_⟩
      iterate 6 refine ⟨.router (fun _ _ => rfl) (by decide), ?_⟩
      exact .router (fun _ _ => rfl) (by decide)
  exact all _ h

theorem Drainer.nodup (d : Drainer f mk op ports r) : ports.Nodup := by
  cases d with
  | cell mem =>
    obtain ⟨-, -, -, asc⟩ := cell_code mem
    exact (asc.filter _).imp Nat.ne_of_lt
  | fibre => exact fibrePorts_nodup op f
  | router => exact routerIns_nodup op

/-- Each of them, while it drains, fires as the drain does (R102, R206). -/
theorem Drainer.exec_of_drainStep (d : Drainer f mk op ports r) (may : MayFire s g e r)
    (frame : (if r then (s.site e).switch else (s.site e).comp) = some f) (code : opcOf f = op)
    (dr : ((s.site e).half r).drain = some got)
    (st : (s.site e).drainStep (s.envOf g e) r ports ports (rlvlOf f) (drainReset r op) = some y)
    (quiet : (y.half r).send = ((s.site e).half r).send) : exec (mk e) s = .next (s.fired g e r y []) := by
  have on : ((s.site e).half r).drain.isSome = true := by rw [dr]; rfl
  cases d with
  | cell mem =>
    obtain ⟨lt, -, rfl, -⟩ := cell_code mem
    have reset : drainReset false op = SitePlane.resetCell := by
      simp only [drainReset, Bool.false_eq_true, if_false, if_pos (show op < 0x50 by omega)]
    have st' : cellStep op f (s.envOf g e) (s.site e) = some y := by
      rw [cellStep_of_lt lt, fireCell_of_drain on, ← reset]; exact st
    rw [exec_cell mem]
    exact State.fireCellAt_of_step may frame code st' (quiet.trans may.quiet)
  | fibre fires ge =>
    have reset : drainReset false op = SitePlane.resetFibre := by simp only [drainReset, Bool.false_eq_true, if_false, if_neg ge]
    have st' : fibreStep op f (s.envOf g e) (s.site e) = some y := by
      rw [fibreStep_of_drain on, ← reset]; exact st
    rw [fires]
    exact State.fireFibreAt_of_step may frame code st'
  | router fires ne =>
    have st' : routerStep op f (s.envOf g e) (s.site e) = some y := (routerStep_of_drain on ne).trans st
    rw [fires, State.fireRouterAt_of_step may frame code st', routerBits_of_drain on]

/-- While a port still has to give its D (R102, R206). -/
theorem Drainer.discards (d : Drainer f mk op ports r) (may : MayFire s g e r)
    (frame : (if r then (s.site e).switch else (s.site e).comp) = some f) (code : opcOf f = op)
    (dr : ((s.site e).half r).drain = some got) (some_ : (s.site e).drainNow ports got ≠ [])
    (more : ports.all ((s.site e).drainDone ports got).contains = false) :
    Gives (mk e) s fun t => Does s g e ((s.site e).drainNow ports got) [] t ∧
      ((t.site e).half r).drain = some ((s.site e).drainDone ports got) ∧ ((t.site e).half r).dOut = ((s.site e).half r).dOut := by
  have st := SitePlane.drainStep_discards (env := s.envOf g e) (rl := rlvlOf f) (reset := drainReset r op) dr some_ more
  refine ⟨_, d.exec_of_drainStep may frame code dr st (by rw [SitePlane.half_setHalf]), State.fired_does ?_, ?_⟩
  · exact (SiteDoes.eat _ (List.Pairwise.filter _ d.nodup)).congr (SitePlane.inputs_setHalf ..) (SitePlane.outs_setHalf ..)
  · obtain ⟨drain, dOut, -⟩ := SitePlane.half_counted (SitePlane.setHalf ..) r
    rw [State.site_fired, drain, dOut, SitePlane.half_setHalf]
    exact ⟨rfl, rfl⟩

/-- With the last D of its ports and with free outputs (R102, R206). -/
theorem Drainer.ends (d : Drainer f mk op ports r) (may : MayFire s g e r)
    (frame : (if r then (s.site e).switch else (s.site e).comp) = some f) (code : opcOf f = op)
    (dr : ((s.site e).half r).drain = some got) (ended : ports.all ((s.site e).drainDone ports got).contains = true)
    (free : ∀ o ∈ ((s.site e).half r).dOut, Free s g e o) (owed : ((s.site e).half r).dOut.Nodup) :
    Gives (mk e) s fun t =>
      Does s g e ((s.site e).drainNow ports got) (((s.site e).half r).dOut.map fun o => (o, doneTok)) t ∧
      ((t.site e).half r).drain = none ∧ (if r then (t.site e).router = .reset else if op < 0x50 then (t.site e).cell = .reset
        else (t.site e).fibre = .reset) := by
  have st := SitePlane.drainStep_ends (rl := rlvlOf f) (reset := drainReset r op) dr ended free
  have send := (s.site e).half_drained_send r ports got (rlvlOf f)
  refine ⟨_, d.exec_of_drainStep may frame code dr st ?_, State.fired_does ?_, ?_⟩
  · rw [half_drainReset, SitePlane.half_setHalf]; exact send
  · exact (SiteDoes.drained _ r got (rlvlOf f) d.nodup owed).congr ((drainReset_inputs ..).trans (SitePlane.inputs_setHalf ..))
      ((drainReset_outs ..).trans (SitePlane.outs_setHalf ..))
  · rw [State.site_fired, SitePlane.counted_of_fired (by rw [half_drainReset, SitePlane.half_setHalf]), half_drainReset,
      SitePlane.half_setHalf]
    exact ⟨rfl, drainReset_reset ..⟩

end

/-- Settles O30: a cell passes on or makes an error token where it examines its heads, and every element that drains fires as one cycle
of the drain does. -/
theorem errorTokensAndDrains : Obligations.ErrorTokensAndDrains := by
  refine ⟨fun s g e f mk op reads mem => ?_, fun s g e f mk op ports r got mem => ?_⟩
  · refine fun cell free => ⟨fun p k hp head err before => cell_forwards mem cell free hp head err before,
      fun a b two ha hb ea eb ne => ?_⟩
    obtain ⟨t, ht, fired, eats, drain, emits⟩ := cell_fails_mixed mem cell free two ha hb ea eb ne
    refine ⟨t, ht, fired, eats, drain, _, emits, rfl, rfl, rfl, rfl, ?_, rfl⟩
    rw [errTok_lane_zero, BitVec.toNat_ofNat]
    omega
  · have d := drainer_of_mem mem
    exact fun may frame code dr => ⟨fun some_ more => d.discards may frame code dr some_ more,
      fun ended free owed => d.ends may frame code dr ended free owed⟩

end Sys2Proof.Machine
end

section
/-! SUPPORT. Loads of configuration images: what an operation on planes leaves of the others, where the frames of an image go, what a
load that passes its checks installs and what one that fails clears (05 R87; 07 R146-R150; 11 R219). -/

namespace Sys2Proof.Machine

open Claims

/-! ### Planes of regions (R87) -/

/-- Two places in the same plane of a region. -/
abbrev SamePlane (e u : Elt) : Prop := e.core = u.core ∧ e.region = u.region ∧ e.plane = u.plane

/-- The key names the region (R82). -/
theorem regionKey_inj {c c' : CoreIx} {r r' : Fin 16} : regionKey c r = regionKey c' r' ↔ c = c' ∧ r = r' := by
  simp only [regionKey, Fin.ext_iff]
  omega

theorem State.planeOf_updPlane (s : State) (e u : Elt) (f : Plane → Plane) :
    (s.updPlane e f).planeOf u = if SamePlane e u then f (s.planeOf u) else s.planeOf u := by
  simp only [State.planeOf, State.region, State.updPlane, State.setRegion, Region.plane, Region.setPlane, SMap.get_set, regionKey_inj]
  by_cases region : u.core = e.core ∧ u.region = e.region
  · obtain ⟨hc, hr⟩ := region
    simp only [hc, hr, and_self, if_true, SMap.get_set, SamePlane, true_and, Fin.ext_iff, eq_comm (a := e.plane.val)]
    split
    · next plane => rw [plane]
    · rfl
  · rw [if_neg region, if_neg fun same => region ⟨same.1.symm, same.2.1.symm⟩]

/-- Sites set one after another: nothing but the sites differs. -/
theorem State.foldl_setSite_eq {α : Type} (l : List α) (at_ : α → Elt) (y : State → α → SitePlane) (s : State) :
    l.foldl (fun t a => t.setSite (at_ a) (y t a)) s =
      { s with sites := (l.foldl (fun t a => t.setSite (at_ a) (y t a)) s).sites } :=
  List.foldlRecOn (motive := fun (t : State) => t = { s with sites := t.sites }) l _ rfl fun t ht a _ =>
    congrArg (fun u : State => { u with sites := (t.setSite (at_ a) (y t a)).sites }) ht

/-- A plane cleared leaves the other planes, and beside regions and sites only the list of bad frames differs. -/
theorem State.clearPlane_eq (s : State) (e : Elt) : ∃ bad sites, s.clearPlane e =
    { s.updPlane e fun _ => .none with repair := { s.repair with badFrames := bad }, sites := sites } :=
  ⟨_, _, State.foldl_setSite_eq ..⟩

theorem State.planeOf_clearPlane (s : State) (e u : Elt) :
    (s.clearPlane e).planeOf u = if SamePlane e u then .none else s.planeOf u := by
  obtain ⟨bad, sites, eq⟩ := s.clearPlane_eq e
  rw [eq]
  exact s.planeOf_updPlane e u fun _ => .none

/-- Planes changed one after another by what changes a plane once: those of the list are changed, the others stay. -/
theorem planeOf_foldl {op : State → Elt → State} {f : Plane → Plane} (once : ∀ q, f (f q) = f q)
    (step : ∀ s e u, (op s e).planeOf u = if SamePlane e u then f (s.planeOf u) else s.planeOf u) (l : List Elt) (s : State) (u : Elt) :
    (l.foldl op s).planeOf u = if ∃ e ∈ l, SamePlane e u then f (s.planeOf u) else s.planeOf u := by
  induction l generalizing s with
  | nil => simp
  | cons a l ih =>
    rw [List.foldl_cons, ih, step]
    simp only [List.mem_cons, or_and_right, exists_or, exists_eq_left]
    by_cases here : SamePlane a u
    · simp only [if_pos here, once, ite_self]
      exact (if_pos (.inl here)).symm
    · rw [if_neg here]
      exact ite_congr (propext (or_iff_right here).symm) (fun _ => rfl) fun _ => rfl

/-- Planes changed one after another: nothing but the regions differs. -/
theorem State.foldl_updPlane_eq (l : List Elt) (f : Plane → Plane) (s : State) :
    l.foldl (fun t e => t.updPlane e f) s = { s with regions := (l.foldl (fun t e => t.updPlane e f) s).regions } :=
  List.foldlRecOn (motive := fun (t : State) => t = { s with regions := t.regions }) l _ rfl fun t ht e _ =>
    congrArg (fun u : State => { u with regions := (t.updPlane e f).regions }) ht

theorem State.planeOf_foldl_updPlane {f : Plane → Plane} (once : ∀ q, f (f q) = f q) {l : List Elt} {e : Elt} (s : State) (h : e ∈ l) :
    (l.foldl (fun t e => t.updPlane e f) s).planeOf e = f (s.planeOf e) :=
  (planeOf_foldl once (fun s e u => s.planeOf_updPlane e u f) l s e).trans (if_pos ⟨e, h, rfl, rfl, rfl⟩)

/-- What clearing planes leaves: memory, cores, graphs and the count of slots freed. -/
theorem State.foldl_clearPlane_frame (l : List Elt) (s : State) :
    let t := l.foldl State.clearPlane s
    t.mem = s.mem ∧ t.cores = s.cores ∧ t.graphs = s.graphs ∧ t.dist = s.dist :=
  List.foldlRecOn (motive := fun (t : State) => t.mem = s.mem ∧ t.cores = s.cores ∧ t.graphs = s.graphs ∧ t.dist = s.dist) l _
    ⟨rfl, rfl, rfl, rfl⟩ fun t ht e _ => by
      obtain ⟨bad, sites, eq⟩ := t.clearPlane_eq e
      rw [eq]
      exact ht

theorem State.planeOf_foldl_clearPlane (l : List Elt) (s : State) (u : Elt) :
    (l.foldl State.clearPlane s).planeOf u = if ∃ e ∈ l, SamePlane e u then .none else s.planeOf u :=
  planeOf_foldl (f := fun _ => .none) (fun _ => rfl) State.planeOf_clearPlane l s u

theorem State.mem_ownedPlanes {s : State} {g : GraphIx} {e : Elt} :
    e ∈ s.ownedPlanes g ↔ e.site = 0 ∧ (∃ n, (n, e.core, e.region) ∈ (s.graph g).spots) ∧ (s.planeOf e).owner = some g := by
  obtain ⟨c, r, i, p⟩ := e
  have all : p ∈ ([0, 1, 2, 3] : List (Fin 4)) := by revert p; decide
  simp only [State.ownedPlanes, State.planesWith, Bool.and_true, decide_eq_true_eq, List.mem_flatMap, List.mem_filterMap,
    Option.ite_none_right_eq_some, Option.some.injEq, Elt.mk.injEq, State.planeOf]
  constructor
  · rintro ⟨⟨n, c', r'⟩, spot, p', -, own, rfl, rfl, rfl, rfl⟩
    exact ⟨rfl, ⟨n, spot⟩, own⟩
  · rintro ⟨rfl, ⟨n, spot⟩, own⟩
    exact ⟨_, spot, p, all, own, rfl, rfl, rfl, rfl⟩

/-- The planes of a load are named by their first sites. -/
theorem State.site_of_mem_loadPlanes {s : State} {g : GraphIx} {l : Load} {e : Elt} (h : e ∈ s.loadPlanes g l) : e.site = 0 := by
  revert h
  simp only [State.loadPlanes]
  split <;> simp only [List.mem_map, List.mem_filterMap, Option.map_eq_some_iff]
  · rintro ⟨_, _, rfl⟩; rfl
  · rintro ⟨_, _, rfl⟩; rfl
  · rintro ⟨_, _, rfl⟩; rfl
  · rintro ⟨_, _, _, _, rfl⟩; rfl

theorem SamePlane.eq {e u : Elt} (same : SamePlane e u) (site : e.site = u.site) : e = u := by
  obtain ⟨core, region, plane⟩ := same
  cases e; cases u
  simp only at core region plane site
  rw [core, region, plane, site]

/-! ### Arrival (R149, R150) -/

/-- A graph's first image and pages of a resident graph are neither a context's nor a block's. -/
theorem Load.kind_ne {l : Load} (kind : l.kind = .graph ∨ l.kind = .pages) : (∀ n, l.kind ≠ .restore n) ∧ ∀ b, l.kind ≠ .block b := by
  obtain kind | kind := kind <;> simp [kind]

/-- The header of the image comes first (R149, log entry 68). -/
theorem Load.next_first {l : Load} (aligned : l.img % 64 = 0) (low : 1 ≤ l.count) (high : l.count ≤ 64) (none_ : l.bytes = []) :
    l.next = some (0, 256) := by
  unfold Load.next
  rw [if_neg (by simp; omega), none_, if_pos (by simp)]

/-- After it 32 bytes at a time (R149, log entry 68), the last piece as long as the image is. -/
theorem Load.next_piece {l : Load} (aligned : l.img % 64 = 0) (low : 1 ≤ l.count) (high : l.count ≤ 64) (header : 256 ≤ l.bytes.length)
    (good : checkHeader l.bytes = none) (pages : byteNat l.bytes 5 1 = l.count) (more : l.bytes.length < imgSize l.bytes) :
    l.next = some (l.bytes.length, min 32 (imgSize l.bytes - l.bytes.length)) := by
  unfold Load.next
  rw [if_neg (by simp; omega), if_neg (by omega), if_neg (by simp [good, pages]), if_neg (by omega)]

section

variable {s : State} {g : GraphIx} {p : Nat} {l : Load}

/-- The load of a plane of a graph, where the graph is not CUT. -/
theorem Graph.load_of_present {x : Graph} (ctx : x.ctx ≠ .cut) (at_ : x.loadAt p = some l) :
    (if x.ctx = .cut then none else x.loadAt p) = some l := (if_neg ctx).trans at_

/-- A load with an INCOMPLETE plane begins again (R149). -/
theorem State.frameArrive_of_incomplete (ctx : (s.graph g).ctx ≠ .cut) (at_ : (s.graph g).loadAt p = some l)
    (lost : ∃ e ∈ s.loadPlanes g l, (s.planeOf e).st = .incomplete) :
    s.frameArrive g p = ((s.loadPlanes g l).foldl (fun t e => t.updPlane e fun q => { q with st := .loading }) s).setGraph g
      { s.graph g with loads := (s.graph g).loads.map fun k => if k = l then { l with bytes := [] } else k } := by
  simp only [State.frameArrive, Graph.load_of_present ctx at_]
  exact if_pos (by simpa using lost)

/-- The next piece of an image is read. -/
theorem State.frameArrive_of_read {o n : Nat} {bs : List Byte} (ctx : (s.graph g).ctx ≠ .cut) (at_ : (s.graph g).loadAt p = some l)
    (whole : ∀ e ∈ s.loadPlanes g l, (s.planeOf e).st ≠ .incomplete) (next : l.next = some (o, n))
    (read : s.engineRead l.asid (l.img + o) n = .ok bs) :
    s.frameArrive g p = s.setGraph g
      { s.graph g with loads := (s.graph g).loads.map fun k => if k = l then { l with bytes := l.bytes ++ bs } else k } := by
  simp only [State.frameArrive, Graph.load_of_present ctx at_, next, read]
  exact if_neg (by simpa using whole)

/-- A load whose image has been read and fails a check (R146, R148). -/
theorem State.loadComplete_of_fail {c : Byte} {v : Nat} (ctx : (s.graph g).ctx ≠ .cut) (at_ : (s.graph g).loadAt p = some l)
    (whole : ∀ e ∈ s.loadPlanes g l, (s.planeOf e).st ≠ .incomplete) (next : l.next = none) (check : s.loadCheck g l = some (c, v)) :
    s.loadComplete g p = s.loadFail g l c v := by
  simp only [State.loadComplete, Graph.load_of_present ctx at_, next, check, Bool.false_eq_true, if_false]
  exact if_neg (by simpa using whole)

/-- A load whose image has been read and passes the checks: a graph of a queue starts, but for a block's there is no more to do (R146). -/
theorem State.loadComplete_of_pass (ctx : (s.graph g).ctx ≠ .cut) (at_ : (s.graph g).loadAt p = some l)
    (whole : ∀ e ∈ s.loadPlanes g l, (s.planeOf e).st ≠ .incomplete) (next : l.next = none) (check : s.loadCheck g l = none)
    (plain : ∀ b, l.kind ≠ .block b) :
    s.loadComplete g p = match l.kind with
      | .launch _ _ => (s.loadInstall g l).launch g
      | _ => s.loadInstall g l := by
  simp only [State.loadComplete, Graph.load_of_present ctx at_, next, check, Bool.false_eq_true, if_false]
  rw [if_neg (by simpa using whole)]
  cases kind : l.kind with
  | block b => exact absurd kind (plain b)
  | graph => rfl
  | pages => rfl
  | launch => rfl
  | restore => rfl

end

/-! ### Frames of sites (R131, R148) -/

/-- The frame of a site by its layout. -/
def SitePlane.frame (x : SitePlane) (k : Nat) : Option FrameBits := if k = 0 then x.comp else if k = 1 then x.tileFr else x.switch

/-- The site with the frame of a layout. -/
def SitePlane.withFrame (x : SitePlane) (f : FrameBits) : SitePlane := match frameLayout f with
  | 0 => { x with comp := some f }
  | 1 => { x with tileFr := some f }
  | _ => { x with switch := some f }

theorem frameLayout_lt (f : FrameBits) : frameLayout f < 4 := Nat.mod_lt _ (by decide)

theorem frameSite_lt (f : FrameBits) : frameSite f < 16 := Nat.mod_lt _ (by decide)

theorem SitePlane.frame_withFrame (x : SitePlane) (f : FrameBits) {k : Nat} (h : k < 3) (site : frameLayout f ≠ 3) :
    (x.withFrame f).frame k = if frameLayout f = k then some f else x.frame k := by
  have lt := frameLayout_lt f
  obtain h0 | h1 | h2 : frameLayout f = 0 ∨ frameLayout f = 1 ∨ frameLayout f = 2 := by omega
  all_goals
    obtain rfl | rfl | rfl : k = 0 ∨ k = 1 ∨ k = 2 := by omega
    all_goals simp [SitePlane.withFrame, SitePlane.frame, *]

/-- Where a frame goes in a region. -/
def frameElt (p : Nat) (r : CoreIx × Fin 16) (f : FrameBits) : Elt := ⟨r.1, r.2, Fin.ofNat 16 (frameSite f), Fin.ofNat 4 p⟩

/-- Frames that go to one place are of one region and one site. -/
theorem frameElt_inj {p q : Nat} {r r' : CoreIx × Fin 16} {f f' : FrameBits} (h : frameElt p r f = frameElt q r' f') :
    r = r' ∧ frameSite f = frameSite f' := by
  simp only [frameElt, Elt.mk.injEq, Fin.ext_iff, Fin.val_ofNat, Nat.mod_eq_of_lt (frameSite_lt _)] at h
  obtain ⟨core, region, site, -⟩ := h
  exact ⟨Prod.ext (Fin.ext core) (Fin.ext region), site⟩

/-- One frame of an image installed, where the graph holds its page. -/
def State.installFrame (s : State) (g : GraphIx) (p : Nat → Nat) (f : FrameBits) : State :=
  if frameLayout f = 3 then s
  else match (s.graph g).place (framePage f) with
    | none => s
    | some r => s.setSite (frameElt (p (framePage f)) r f) ((s.site (frameElt (p (framePage f)) r f)).withFrame f)

/-- The frames of the pages of a load, one after another. -/
theorem State.installFrames_all (s : State) (g : GraphIx) (p : Nat → Nat) (fs : List FrameBits) :
    s.installFrames g p (fun _ => true) fs = fs.foldl (fun t f => t.installFrame g p f) s := by
  unfold State.installFrames
  congr
  funext t f
  simp only [Bool.not_true, Bool.or_false, decide_eq_true_eq]
  rfl

theorem State.installFrame_eq (s : State) (g : GraphIx) (p : Nat → Nat) (f : FrameBits) :
    s.installFrame g p f = { s with sites := (s.installFrame g p f).sites } := by
  unfold State.installFrame
  split
  · rfl
  · split <;> rfl

theorem State.foldl_installFrame_eq (s : State) (g : GraphIx) (p : Nat → Nat) (fs : List FrameBits) :
    fs.foldl (fun t f => t.installFrame g p f) s = { s with sites := (fs.foldl (fun t f => t.installFrame g p f) s).sites } :=
  List.foldlRecOn (motive := fun (t : State) => t = { s with sites := t.sites }) fs _ rfl fun t ht f _ =>
    (t.installFrame_eq g p f).trans (congrArg (fun u : State => { u with sites := (t.installFrame g p f).sites }) ht)

section

variable {s : State} {g : GraphIx} {p : Nat → Nat} {f : FrameBits} {r : CoreIx × Fin 16}

theorem State.graph_foldl_installFrame (s : State) (g : GraphIx) (p : Nat → Nat) (fs : List FrameBits) (h : GraphIx) :
    (fs.foldl (fun t f => t.installFrame g p f) s).graph h = s.graph h := by
  rw [s.foldl_installFrame_eq g p fs]; rfl

theorem State.frame_installFrame_same (site : frameLayout f ≠ 3) (place : (s.graph g).place (framePage f) = some r) :
    ((s.installFrame g p f).site (frameElt (p (framePage f)) r f)).frame (frameLayout f) = some f := by
  have lt := frameLayout_lt f
  simp only [State.installFrame, if_neg site, place, site_setSite_same]
  rw [SitePlane.frame_withFrame _ _ (by omega) site, if_pos rfl]

/-- A frame leaves those of other places and of other layouts. -/
theorem State.frame_installFrame_other {e : Elt} {k : Nat} (h : k < 3) (other : ∀ r, frameLayout f ≠ 3 →
    (s.graph g).place (framePage f) = some r → frameElt (p (framePage f)) r f = e → frameLayout f ≠ k) :
    ((s.installFrame g p f).site e).frame k = (s.site e).frame k := by
  unfold State.installFrame
  split
  · rfl
  · next site =>
    split
    · rfl
    · next r place =>
      by_cases at_ : e = frameElt (p (framePage f)) r f
      · subst at_
        rw [site_setSite_same, SitePlane.frame_withFrame _ _ h site, if_neg (other r site place rfl)]
      · rw [site_setSite_other _ _ at_]

/-- A frame of an image stands in its site, where no later one has its place and its layout. -/
theorem State.frame_foldl_installFrame {a b : List FrameBits} (site : frameLayout f ≠ 3) (place : (s.graph g).place (framePage f) = some r)
    (last : ∀ u ∈ b, ∀ r', frameLayout u ≠ 3 → (s.graph g).place (framePage u) = some r' →
      frameElt (p (framePage u)) r' u = frameElt (p (framePage f)) r f → frameLayout u ≠ frameLayout f) :
    (((a ++ f :: b).foldl (fun t f => t.installFrame g p f) s).site (frameElt (p (framePage f)) r f)).frame (frameLayout f) = some f := by
  have lt := frameLayout_lt f
  rw [List.foldl_append, List.foldl_cons]
  refine And.right (List.foldlRecOn (motive := fun (t : State) => t.graph g = s.graph g ∧
    (t.site (frameElt (p (framePage f)) r f)).frame (frameLayout f) = some f) b _ ⟨?_, ?_⟩ fun t ht u mem => ?_)
  · exact s.graph_foldl_installFrame g p (a ++ [f]) g ▸ by rw [List.foldl_append]; rfl
  · exact frame_installFrame_same site ((s.graph_foldl_installFrame g p a g).symm ▸ place)
  · obtain ⟨graph, frame⟩ := ht
    refine ⟨(t.graph_foldl_installFrame g p [u] g).trans graph, ?_⟩
    rw [frame_installFrame_other (by omega) fun r' => graph ▸ last u mem r']
    exact frame

end

/-! ### What a load installs beside (R128-R130, R148, R228, R437) -/

/-- Sites and planes stay, and of the graphs only g differs, whose loads stay. -/
structure KeepsLoads (s : State) (g : GraphIx) (t : State) : Prop where
  sites   : t.sites = s.sites
  regions : t.regions = s.regions
  loads   : (t.graph g).loads = (s.graph g).loads
  others  : ∀ h, h ≠ g → t.graph h = s.graph h

namespace KeepsLoads

variable {s t u : State} {g : GraphIx} {l : Load}

theorem refl (s : State) (g : GraphIx) : KeepsLoads s g s := ⟨rfl, rfl, rfl, fun _ _ => rfl⟩

theorem trans (h : KeepsLoads s g t) (k : KeepsLoads t g u) : KeepsLoads s g u :=
  ⟨k.sites.trans h.sites, k.regions.trans h.regions, k.loads.trans h.loads, fun i ne => (k.others i ne).trans (h.others i ne)⟩

theorem setGraph {x : Graph} (h : x.loads = (s.graph g).loads) : KeepsLoads s g (s.setGraph g x) :=
  ⟨rfl, rfl, (congrArg Graph.loads (State.graph_updGraph_same s g fun _ => x)).trans h,
    fun _ ne => State.graph_updGraph_other s (fun _ => x) ne⟩

theorem deviceWrite (s : State) (g : GraphIx) (pa : Nat) (bs : List Byte) : KeepsLoads s g (s.deviceWrite pa bs) := by
  unfold State.deviceWrite
  rw [State.storeBytes_eq]
  exact ⟨rfl, rfl, rfl, fun _ _ => rfl⟩

theorem writeReq (s : State) (g : GraphIx) : KeepsLoads s g (s.writeReq g) := by
  unfold State.writeReq
  split
  · exact refl s g
  · exact deviceWrite ..

theorem installStreams (s : State) (g : GraphIx) (l : Load) : KeepsLoads s g (s.installStreams g l) := by
  refine setGraph ?_
  simp only [Graph.bound, Graph.addFrames, Graph.dropPlane]
  split <;> rfl

theorem installGraph (s : State) (g : GraphIx) (l : Load) : KeepsLoads s g (s.installGraph g l) := by
  unfold State.installGraph
  refine trans (setGraph ?_) (writeReq _ g)
  rfl

end KeepsLoads

/-- A plane that holds a whole image (R87). -/
def Plane.toShadow (q : Plane) : Plane := { q with st := .shadow }

section

variable {s : State} {g : GraphIx} {l : Load}

/-- A load of an image installs the frames of its sites, then streams and declarations; its planes become SHADOW and the load is over. -/
theorem State.loadInstall_eq (image : ∀ n, l.kind ≠ .restore n) :
    ∃ u, KeepsLoads ((imgFrameList l.bytes).foldl (fun t f => t.installFrame g (l.planeFor (s.graph g)) f) s) g u ∧
      s.loadInstall g l = ((s.loadPlanes g l).foldl (fun t e => t.updPlane e Plane.toShadow) u).updGraph g fun x =>
        { x.dropLoad l with loaded := some 0 } := by
  rw [← State.installFrames_all]
  unfold State.loadInstall
  cases kind : l.kind with
  | restore n => exact absurd kind (image n)
  | graph => exact ⟨_, .trans (.installStreams ..) (.installGraph ..), rfl⟩
  | launch => exact ⟨_, .trans (.installStreams ..) (.installGraph ..), rfl⟩
  | pages => exact ⟨_, .trans (.installStreams ..) (.writeReq ..), rfl⟩
  | block => exact ⟨_, .trans (.installStreams ..) (.writeReq ..), rfl⟩

/-- After such a load: the planes of the load, the graphs, and the sites with the frames of the image. -/
theorem State.loadInstall_spec (image : ∀ n, l.kind ≠ .restore n) :
    let t := s.loadInstall g l
    (∀ e ∈ s.loadPlanes g l, t.planeOf e = (s.planeOf e).toShadow) ∧
    (t.graph g).loaded = some 0 ∧ (t.graph g).loads = (s.graph g).loads.erase l ∧ (∀ h, h ≠ g → t.graph h = s.graph h) ∧
    t.site = ((imgFrameList l.bytes).foldl (fun t f => t.installFrame g (l.planeFor (s.graph g)) f) s).site := by
  obtain ⟨u, ⟨sites, regions, loads, others⟩, eq⟩ := State.loadInstall_eq (s := s) (g := g) image
  have frames := s.foldl_installFrame_eq g (l.planeFor (s.graph g)) (imgFrameList l.bytes)
  have rest := u.foldl_updPlane_eq (s.loadPlanes g l) Plane.toShadow
  generalize (imgFrameList l.bytes).foldl _ s = v at *
  have planes : u.planeOf = s.planeOf := by
    funext e
    rw [State.planeOf, State.region, regions, frames]; rfl
  have graph : ∀ h, ((s.loadPlanes g l).foldl (fun t e => t.updPlane e Plane.toShadow) u).graph h = u.graph h := fun h => by
    rw [rest]; rfl
  have before : ∀ h, v.graph h = s.graph h := fun h => by rw [frames]; rfl
  dsimp only
  rw [eq]
  refine ⟨fun e mem => ?_, ?_, ?_, fun h ne => ?_, ?_⟩
  · rw [← planes]
    exact u.planeOf_foldl_updPlane (f := Plane.toShadow) (fun _ => rfl) mem
  · rw [graph_updGraph_same]
  · rw [graph_updGraph_same, Graph.dropLoad, graph, loads, before]
  · rw [graph_updGraph_other _ _ ne, graph, others h ne, before]
  · funext e
    rw [State.site, State.updGraph_sites, rest, sites]; rfl

end

/-! ### The start of a graph of a queue (R223, R240) -/

theorem State.graphs_foldl {α : Type} {op : State → α → State} (step : ∀ t a, (op t a).graphs = t.graphs) (l : List α) (s : State) :
    (l.foldl op s).graphs = s.graphs :=
  List.foldlRecOn (motive := fun (t : State) => t.graphs = s.graphs) l _ rfl fun t ht a _ => (step t a).trans ht

theorem State.graphs_dropChoice (s : State) (g : GraphIx) (c : CoreIx) (r : Fin 16) : (s.dropChoice g c r).graphs = s.graphs := by
  simp only [State.dropChoice]
  split
  · split <;> rfl
  · rfl

theorem State.graphs_updPlane (s : State) (e : Elt) (f : Plane → Plane) : (s.updPlane e f).graphs = s.graphs := rfl

theorem State.graphs_activatePlane (s : State) (e : Elt) (inter : Bool) : (s.activatePlane e inter).graphs = s.graphs := by
  simp only [State.activatePlane, State.setRegion_graphs, State.graphs_updPlane]
  split
  · rw [State.graphs_foldl]
    exact fun _ _ => rfl
  · rw [State.graphs_foldl, State.graphs_foldl]
    · exact fun _ _ => rfl
    · intro t p
      split <;> rfl

/-- Generators and streams bound anew: of the graph only its generators differ. -/
theorem State.graph_rebind (s : State) (g : GraphIx) : ∃ gens, (s.rebind g).graph g = { s.graph g with gens := gens } := by
  have same := s.graph_updGraph_same g fun x =>
    { x with gens := x.gens.mapV .none fun _ q => q.become (s.planeFor g q) (s.partsOf g q) }
  refine ⟨_, Eq.trans ?_ same⟩
  rw [State.graph, State.rebind, State.graphs_foldl]
  · rfl
  · exact fun _ _ => rfl

/-- A graph's planes started: of the graph only its generators differ. -/
theorem State.graph_startPlanes (s : State) (g : GraphIx) : ∃ gens, (s.startPlanes g).graph g = { s.graph g with gens := gens } := by
  unfold State.startPlanes
  obtain ⟨gens, eq⟩ := State.graph_rebind (List.foldl _ s (s.graph g).pages) g
  refine ⟨gens, eq.trans ?_⟩
  rw [State.graph, State.graphs_foldl]
  · rfl
  · intro t p
    dsimp only
    rw [State.graphs_activatePlane, State.graphs_dropChoice, State.graphs_foldl]
    intro u i
    split <;> rfl

theorem State.graph_mapOwned (s : State) (g h : GraphIx) (f : Elt → SitePlane → SitePlane) : (s.mapOwned g f).graph h = s.graph h := by
  rw [State.graph, State.mapOwned, State.graphs_foldl]
  · rfl
  · exact fun _ _ => rfl

/-- Faces cleared: of the graph only its generators differ. -/
theorem State.graph_clearFaces (s : State) (g : GraphIx) : ∃ gens, (s.clearFaces g).graph g = { s.graph g with gens := gens } := by
  rw [State.clearFaces, graph_updGraph_same, State.graph_mapOwned]
  exact ⟨_, rfl⟩

/-- A graph launched runs, and keeps what the load of its image has left (R240). -/
theorem State.launch_runs (s : State) (g : GraphIx) :
    ((s.launch g).graph g).st = .run ∧ ((s.launch g).graph g).loaded = (s.graph g).loaded := by
  have begun : (((s.clearFaces g).updGraph g fun x => x.begin s.cycle).graph g).st = .run ∧
      (((s.clearFaces g).updGraph g fun x => x.begin s.cycle).graph g).loaded = (s.graph g).loaded := by
    obtain ⟨gens, eq⟩ := s.graph_clearFaces g
    rw [graph_updGraph_same, eq]
    exact ⟨rfl, rfl⟩
  unfold State.launch
  dsimp only
  split
  · rw [graph_updGraph_same]
    exact begun
  · obtain ⟨gens, eq⟩ := State.graph_startPlanes ((s.clearFaces g).updGraph g fun x => x.begin s.cycle) g
    rw [eq]
    exact begun

/-! ### A load that fails (R148, R219) -/

section

variable {s : State} {g : GraphIx} {l : Load}

/-- The module once the planes of a load are EMPTY and its status stands in the graph. -/
def State.loadCleared (s : State) (g : GraphIx) (l : Load) (c : Byte) (v : Nat) : State :=
  ((s.loadPlanes g l).foldl State.clearPlane s).updGraph g fun x => { x.dropLoad l with loaded := some (statusWord c v) }

theorem State.planeOf_loadCleared (c : Byte) (v : Nat) (u : Elt) :
    (s.loadCleared g l c v).planeOf u = if ∃ e ∈ s.loadPlanes g l, SamePlane e u then .none else s.planeOf u :=
  State.planeOf_foldl_clearPlane ..

/-- Beside planes only the graph's loads and their status differ. -/
theorem State.loadCleared_frame (s : State) (g : GraphIx) (l : Load) (c : Byte) (v : Nat) :
    let t := s.loadCleared g l c v
    t.mem = s.mem ∧ t.cores = s.cores ∧ t.dist = s.dist ∧
      t.graph g = { (s.graph g).dropLoad l with loaded := some (statusWord c v) } := by
  obtain ⟨mem, cores, graphs, dist⟩ := s.foldl_clearPlane_frame (s.loadPlanes g l)
  refine ⟨mem, cores, dist, ?_⟩
  rw [State.loadCleared, graph_updGraph_same, State.graph, graphs]
  rfl

theorem State.loadFail_of_graph (kind : l.kind = .graph) (c : Byte) (v : Nat) :
    s.loadFail g l c v = (s.loadCleared g l c v).updGraph g fun x => { x with gens := [] } := by
  simp only [State.loadFail, kind]; rfl

theorem State.loadFail_of_pages (kind : l.kind = .pages) (c : Byte) (v : Nat) :
    s.loadFail g l c v = (s.loadCleared g l c v).maybeRelease g := by
  simp only [State.loadFail, kind]; rfl

/-- A graph that runs, or owns a plane, stays resident (R219). -/
theorem State.maybeRelease_of_held (held : (s.graph g).started = true ∨ ∃ e, e ∈ s.ownedPlanes g) : s.maybeRelease g = s := by
  unfold State.maybeRelease
  refine if_neg fun gone => ?_
  simp only [Bool.and_eq_true, Bool.not_eq_true', List.isEmpty_iff] at gone
  obtain ⟨⟨⟨-, idle⟩, -⟩, none_⟩ := gone
  obtain run | ⟨e, mem⟩ := held
  · rw [run] at idle; cases idle
  · rw [none_] at mem; cases mem

/-- A graph that does not run, is not away and owns no plane is resident no longer: its slot is free (R219). -/
theorem State.graph_maybeRelease_of_gone (live : (s.graph g).live = true) (idle : (s.graph g).started = false) (here : (s.graph g).away = false)
    (none_ : ∀ e, e ∉ s.ownedPlanes g) :
    (s.maybeRelease g).graph g = { Graph.free with gen := ((s.graph g).gen + 1) % 16, freed := s.dist.frees + 1 } := by
  have empty : (s.ownedPlanes g).isEmpty = true := List.isEmpty_iff.2 (List.eq_nil_iff_forall_not_mem.2 none_)
  unfold State.maybeRelease
  simp only [live, idle, here, empty, Bool.not_false, Bool.and_self, if_true]
  exact State.graph_updGraph_same s g fun _ => _

/-- A release touches the graph's slot and the count of slots freed. -/
theorem State.maybeRelease_frame (s : State) (g : GraphIx) :
    let t := s.maybeRelease g
    t.mem = s.mem ∧ t.cores = s.cores ∧ t.planeOf = s.planeOf := by
  simp only [State.maybeRelease]
  split <;> exact ⟨rfl, rfl, rfl⟩

/-- A load of a graph's first image or of pages that fails: its planes are EMPTY, memory and cores stay (R148). -/
theorem State.loadFail_frame (kind : l.kind = .graph ∨ l.kind = .pages) (c : Byte) (v : Nat) :
    let t := s.loadFail g l c v
    (∀ e ∈ s.loadPlanes g l, t.planeOf e = .none) ∧ t.mem = s.mem ∧ t.cores = s.cores := by
  obtain ⟨mem, cores, -, -⟩ := s.loadCleared_frame g l c v
  have planes : ∀ e ∈ s.loadPlanes g l, (s.loadCleared g l c v).planeOf e = .none := fun e h =>
    (State.planeOf_loadCleared c v e).trans (if_pos ⟨e, h, rfl, rfl, rfl⟩)
  obtain kind | kind := kind
  · rw [State.loadFail_of_graph kind]
    exact ⟨planes, mem, cores⟩
  · rw [State.loadFail_of_pages kind]
    obtain ⟨mem', cores', planes'⟩ := (s.loadCleared g l c v).maybeRelease_frame g
    exact ⟨fun e h => planes' ▸ planes e h, mem'.trans mem, cores'.trans cores⟩

/-- The planes that the graph owns after a load that failed: those that the load did not write. -/
theorem State.mem_ownedPlanes_loadCleared {c : Byte} {v : Nat} {e : Elt} :
    e ∈ (s.loadCleared g l c v).ownedPlanes g ↔ e ∈ s.ownedPlanes g ∧ e ∉ s.loadPlanes g l := by
  obtain ⟨-, -, -, graph⟩ := s.loadCleared_frame g l c v
  have spots : ((s.loadCleared g l c v).graph g).spots = (s.graph g).spots := by rw [graph]; rfl
  rw [State.mem_ownedPlanes, State.mem_ownedPlanes, spots, State.planeOf_loadCleared]
  constructor
  · rintro ⟨site, spot, own⟩
    split at own
    · cases own
    · next none_ => exact ⟨⟨site, spot, own⟩, fun mem => none_ ⟨e, mem, rfl, rfl, rfl⟩⟩
  · rintro ⟨⟨site, spot, own⟩, other⟩
    refine ⟨site, spot, ?_⟩
    rw [if_neg]
    · exact own
    · rintro ⟨u, mem, same⟩
      exact other (same.eq ((site_of_mem_loadPlanes mem).trans site.symm) ▸ mem)

/-- GWAIT's answer to a load that failed, where the graph is resident still: its first load, or it runs, or owns another plane. -/
theorem State.loadFail_answers (kind : l.kind = .graph ∨ l.kind = .pages) (c : Byte) (v : Nat)
    (held : l.kind = .graph ∨ (s.graph g).started = true ∨ ∃ e ∈ s.ownedPlanes g, e ∉ s.loadPlanes g l) :
    ((s.loadFail g l c v).graph g).loads = (s.graph g).loads.erase l ∧
      ((s.loadFail g l c v).graph g).loaded = some (statusWord c v) := by
  obtain ⟨-, -, -, graph⟩ := s.loadCleared_frame g l c v
  obtain kind | kind := kind
  · rw [State.loadFail_of_graph kind, graph_updGraph_same, graph]
    exact ⟨rfl, rfl⟩
  · have held : ((s.loadCleared g l c v).graph g).started = true ∨ ∃ e, e ∈ (s.loadCleared g l c v).ownedPlanes g := by
      obtain first | run | ⟨e, mem⟩ := held
      · rw [kind] at first; cases first
      · rw [graph]; exact .inl run
      · exact .inr ⟨e, State.mem_ownedPlanes_loadCleared.2 mem⟩
    rw [State.loadFail_of_pages kind, State.maybeRelease_of_held held, graph]
    exact ⟨rfl, rfl⟩

/-- Pages that fail to load where the graph does not run and owns no other plane: it is resident no longer (R219). -/
theorem State.loadFail_releases (kind : l.kind = .pages) (c : Byte) (v : Nat) (live : (s.graph g).live = true)
    (idle : (s.graph g).started = false) (cut : (s.graph g).ctx ≠ .cut) (restoring : (s.graph g).ctx ≠ .restoring)
    (only : ∀ e ∈ s.ownedPlanes g, e ∈ s.loadPlanes g l) :
    (s.loadFail g l c v).graph g = { Graph.free with gen := ((s.graph g).gen + 1) % 16, freed := s.dist.frees + 1 } := by
  obtain ⟨-, -, dist, graph⟩ := s.loadCleared_frame g l c v
  have here : ((s.graph g).dropLoad l).away = false := by simp [Graph.away, Graph.dropLoad, cut, restoring]
  have gone : ∀ e, e ∉ (s.loadCleared g l c v).ownedPlanes g := fun e mem =>
    let ⟨own, other⟩ := State.mem_ownedPlanes_loadCleared.1 mem
    other (only e own)
  rw [State.loadFail_of_pages kind, State.graph_maybeRelease_of_gone (by rw [graph]; exact live) (by rw [graph]; exact idle)
    (by rw [graph]; exact here) gone, graph, dist]
  rfl

end

/-! ### The statement -/

theorem gives_configFrameArrive {s t : State} {g : GraphIx} {p : BitVec 2} {P : State → Prop} (eq : s.frameArrive g p.toNat = t) (h : P t) :
    Gives (.configFrameArrive g p) s P := ⟨t, eq ▸ rfl, h⟩

theorem gives_cfgLoadComplete {s t : State} {g : GraphIx} {p : BitVec 2} {P : State → Prop} (eq : s.loadComplete g p.toNat = t) (h : P t) :
    Gives (.cfgLoadComplete g p) s P := ⟨t, eq ▸ rfl, h⟩

/-- A queue's graph starts, and its load has ended without a failure (R223). -/
theorem State.launchLoaded_runs {s : State} {g : GraphIx} {l : Load} (image : ∀ n, l.kind ≠ .restore n) :
    (((s.loadInstall g l).launch g).graph g).st = .run ∧ (((s.loadInstall g l).launch g).graph g).loaded = some 0 := by
  obtain ⟨-, loaded, -, -, -⟩ := State.loadInstall_spec (s := s) (g := g) image
  obtain ⟨run, keeps⟩ := (s.loadInstall g l).launch_runs g
  exact ⟨run, keeps.trans loaded⟩

/-- The frames of an image stand in the sites of the load's plane, the last of those with one place and one layout (R131, R148). -/
theorem State.frame_loadInstall {s : State} {g : GraphIx} {l : Load} (kind : l.kind = .graph ∨ l.kind = .pages)
    {a b : List FrameBits} {f : FrameBits} {r : CoreIx × Fin 16} (image : imgFrameList l.bytes = a ++ f :: b) (site : frameLayout f ≠ 3)
    (place : (s.graph g).place (framePage f) = some r)
    (last : ∀ u ∈ b, (s.graph g).place (framePage u) = some r → frameSite u = frameSite f → frameLayout u ≠ frameLayout f) :
    ((s.loadInstall g l).site (frameElt l.plane r f)).frame (frameLayout f) = some f := by
  have plane : l.planeFor (s.graph g) = fun _ => l.plane := by
    funext n
    obtain kind | kind := kind <;> rw [Load.planeFor, kind]
  obtain ⟨-, -, -, -, sites⟩ := State.loadInstall_spec (s := s) (g := g) (Load.kind_ne kind).1
  rw [sites, image, plane]
  refine State.frame_foldl_installFrame site place fun u mem r' _ there at_ => ?_
  obtain ⟨rfl, same⟩ := frameElt_inj at_
  exact last u mem there same

/-- Settles O50: images arrive piece by piece; a load that passes its checks installs the frames and leaves its planes SHADOW, one that
fails leaves them EMPTY and its status in the graph, which is released where nothing holds it. -/
theorem imageArrival : Obligations.ImageArrival := by
  intro s g p l x ctx at_
  refine ⟨fun aligned low high => ⟨Load.next_first aligned low high, Load.next_piece aligned low high⟩, fun lost => ?_,
    fun whole => ⟨fun o n bs next read => ?_, fun next check => ⟨fun kind => ?_, fun q i kind => ?_⟩, fun c v next check kind => ?_⟩⟩
  · refine gives_configFrameArrive (State.frameArrive_of_incomplete ctx at_ lost) ⟨fun e mem => ?_, ?_, ?_⟩
    · exact congrArg Plane.st (s.planeOf_foldl_updPlane (f := fun q => { q with st := .loading }) (fun _ => rfl) mem)
    · rw [State.setGraph_sites, State.foldl_updPlane_eq]
    · exact congrArg Graph.loads (State.graph_updGraph_same _ g fun _ => _)
  · exact gives_configFrameArrive (State.frameArrive_of_read ctx at_ whole next read) ⟨State.graph_updGraph_same s g fun _ => _,
      fun h ne => State.graph_updGraph_other s (fun _ => _) ne, rfl⟩
  · obtain ⟨image, plain⟩ := Load.kind_ne kind
    have passes : s.loadComplete g p.toNat = s.loadInstall g l := by
      rw [State.loadComplete_of_pass ctx at_ whole next check plain]
      obtain kind | kind := kind <;> rw [kind]
    obtain ⟨planes, loaded, loads, others, -⟩ := State.loadInstall_spec (s := s) (g := g) image
    exact gives_cfgLoadComplete passes ⟨fun e mem => by rw [planes e mem]; exact ⟨rfl, rfl⟩, loaded, loads, others,
      fun a f b r image site place last => State.frame_loadInstall kind image site place last⟩
  · have passes : s.loadComplete g p.toNat = (s.loadInstall g l).launch g := by
      rw [State.loadComplete_of_pass ctx at_ whole next check (by simp [kind]), kind]
    exact gives_cfgLoadComplete passes (State.launchLoaded_runs (l := l) (by simp [kind]))
  · obtain ⟨planes, mem, cores⟩ := State.loadFail_frame (s := s) (g := g) kind c v
    exact gives_cfgLoadComplete (State.loadComplete_of_fail ctx at_ whole next check) ⟨planes, mem, cores,
      fun held => State.loadFail_answers kind c v held,
      fun pages live idle restoring only => State.loadFail_releases pages c v live idle ctx restoring only⟩

end Sys2Proof.Machine
end
